-- ==== Sys2Proof/Word.lean ====
section
/-! DEFINITION. The plain word types of the frame decoder core (00_scope.md R9-R12). -/

namespace Sys2Proof

/-- A byte, 0..255 (R9). -/
abbrev Byte := BitVec 8

/-- The bits of a 16-bit payload field (R94). -/
abbrev Half := BitVec 16

/-- The bits of a 32-bit payload field (R94). -/
abbrev Word32 := BitVec 32

/-- A host register or a diagnostic counter (R7, R37). -/
abbrev Word64 := BitVec 64

/-- An IEEE 754 binary64 value, held as its bit pattern (R12, R108). -/
abbrev Binary64 := BitVec 64

end Sys2Proof
end

