-- ==== Sys2Proof/Syntax.lean ====
section
/-! DEFINITION. The syntax of the frame decoder core: the channels, the frame, the encoded form of a step, and the
instructions, one constructor per row of spec/opcode_table.json. -/

namespace Sys2Proof

/-- The nine telemetry channels, one per valid type byte (30_encoding.md R93). -/
inductive Channel where
  | clock | acc | gyro | angle | mag | port | press | lonlat | gpsv
deriving DecidableEq, Repr

/-- A frame: exactly eleven bytes `f[0]` to `f[10]` (30_encoding.md R90, R91). The payload is `p2` to `p9`. -/
structure Frame where
  sync : Byte
  typ : Byte
  p2 : Byte
  p3 : Byte
  p4 : Byte
  p5 : Byte
  p6 : Byte
  p7 : Byte
  p8 : Byte
  p9 : Byte
  cks : Byte
deriving DecidableEq, Repr

/-- The encoded form of one step, in the formats of the opcode table (30_encoding.md R92, R103) and with the operands
the stimulus notation gives (R101). A frame is its bytes with the `now` its FRAME step draws (R191); a host access is
its width in bytes and its window offset, so that accesses the host owes never to make (44_host.md R229) can be
written, and refused. The agent steps have no bits (R103). -/
inductive StepWord where
  | frame (now : Nat) (bytes : List Byte)
  | hostRead (width off : Nat)
  | hostWrite (width off : Nat) (data : Word64)
  | push (b : Byte)
  | extract
  | frameStep (now : Nat)
  | reset
deriving DecidableEq, Repr, Inhabited

/-- The instructions: one constructor per row of spec/opcode_table.json, in the table's order. The ten frame rows carry
the time `now` that the FRAME step on the frame draws, the sync byte, the payload fields of 30_encoding.md R95 (the
bits of each field, little-endian assembled) and the checksum byte. An `offset` is bits 9:3 of a window offset. -/
inductive Instr where
  | clock (now : Nat) (sync yy month day hour minute second : Byte) (ms : Half) (cks : Byte)
  | acc (now : Nat) (sync : Byte) (acc0 acc1 acc2 temp : Half) (cks : Byte)
  | gyro (now : Nat) (sync : Byte) (gyro0 gyro1 gyro2 temp : Half) (cks : Byte)
  | angle (now : Nat) (sync : Byte) (angle0 angle1 angle2 temp : Half) (cks : Byte)
  | mag (now : Nat) (sync : Byte) (mag0 mag1 mag2 temp : Half) (cks : Byte)
  | port (now : Nat) (sync : Byte) (port0 port1 port2 port3 : Half) (cks : Byte)
  | press (now : Nat) (sync : Byte) (pressure altitude : Word32) (cks : Byte)
  | lonlat (now : Nat) (sync : Byte) (longitude latitude : Word32) (cks : Byte)
  | gpsv (now : Nat) (sync : Byte) (height yaw speed unused : Half) (cks : Byte)
  | unknown (now : Nat) (sync typ : Byte) (payload : Word64) (cks : Byte)
  | rdCtrl
  | rdStatus
  | rdCntNoise
  | rdCntOvf
  | rdCntFrames
  | rdCntCksum
  | rdCntUnknown
  | rdCntApplied
  | rdCntSuppressed
  | rdSnapAcceleration0
  | rdSnapAcceleration1
  | rdSnapAcceleration2
  | rdSnapAcceleration3
  | rdSnapAngularVelocity0
  | rdSnapAngularVelocity1
  | rdSnapAngularVelocity2
  | rdSnapAngularVelocity3
  | rdSnapAngle0
  | rdSnapAngle1
  | rdSnapAngle2
  | rdSnapAngle3
  | rdSnapMagneticField0
  | rdSnapMagneticField1
  | rdSnapMagneticField2
  | rdSnapMagneticField3
  | rdSnapDigitalPort0
  | rdSnapDigitalPort1
  | rdSnapDigitalPort2
  | rdSnapDigitalPort3
  | rdSnapTemperature
  | rdSnapPressure
  | rdSnapAltitude
  | rdSnapGroundVelocity
  | rdSnapGpsYaw
  | rdSnapGpsHeight
  | rdSnapLongitude
  | rdSnapLatitude
  | rdSnapDeviceClock0
  | rdSnapDeviceClock1
  | rdSnapDeviceClock2
  | rdSnapDeviceClock3
  | rdSnapDeviceClock4
  | rdSnapDeviceClock5
  | rdSnapDeviceClock6
  | rdSnapChValid
  | rdReserved (offset : BitVec 7)
  | wrCtrl (data : Word64)
  | wrOther (offset : BitVec 7) (data : Word64)
  | push (b : Byte)
  | extract
  | step (now : Nat)
  | reset
deriving DecidableEq, Repr

end Sys2Proof
end

