-- ==== Sys2Proof/Config.lean ====
section
/-! DEFINITION. The parameters of 00_scope.md R7 and 70_reset_and_hazards.md R283: fixed before the first step, never
changing, arguments of the operations and not state. A parameter the spec leaves open is an opaque constant. -/

namespace Sys2Proof

/-- The multiplier `N / D` of a scaled lane (42_decode.md R161). -/
structure Ratio where
  num : Nat
  den : Nat
deriving DecidableEq, Repr

/-- The constants of the scaling table (42_decode.md R161), one ratio per scaled lane (lanes 0, 1 and 2 of a motion
type share theirs), and the offset of the year. The lanes the table marks RAW have no constant. -/
structure ScaleLut where
  acc : Ratio
  accTemp : Ratio
  gyro : Ratio
  gyroTemp : Ratio
  angle : Ratio
  angleTemp : Ratio
  magTemp : Ratio
  altitude : Ratio
  height : Ratio
  yaw : Ratio
  speed : Ratio
  yearOffset : Nat
deriving DecidableEq, Repr

/-- `SCALE_LUT` with the values it has for the FDC (42_decode.md R161; decision D32). -/
def Config.scaleLut : ScaleLut where
  acc := ⟨16, 32768⟩
  accTemp := ⟨1, 100⟩
  gyro := ⟨2000, 32768⟩
  gyroTemp := ⟨1, 100⟩
  angle := ⟨180, 32768⟩
  angleTemp := ⟨1, 100⟩
  magTemp := ⟨1, 100⟩
  altitude := ⟨1, 100⟩
  height := ⟨1, 10⟩
  yaw := ⟨1, 10⟩
  speed := ⟨1, 1000⟩
  yearOffset := 2000

/-- `SYNC_BYTE` (00_scope.md R7). -/
def Config.syncByte : Byte := 0x55

/-- `SYNC_MASK` for the FDC (00_scope.md R7; 90_conflicts.md C1). -/
def Config.syncMask : Byte := 0x50

/-- `SYNC_MATCH` (00_scope.md R7). -/
def Config.syncMatch : Byte := 0x50

/-- `FRAME_LEN` (00_scope.md R7). -/
def Config.frameLen : Nat := 11

/-- FREE: by how much a finite `BUF_CAP` exceeds 11, or none where the buffer is unbounded (DESIGN CHOICE, log 4). -/
opaque Config.bufCapOver : Option Nat

/-- `BUF_CAP`: open, a natural number of at least 11, or none for the unbounded buffer (00_scope.md R7, decision D4). -/
def Config.bufCap : Option Nat := Config.bufCapOver.map (· + 11)

/-- FREE: one less than a tenth of `TICK_HZ` (DESIGN CHOICE, log 5). -/
opaque Config.tickTenthPred : Nat

/-- `TICK_HZ`: open, a positive multiple of 10 (00_scope.md R7, decision D14). -/
def Config.tickHz : Nat := 10 * (Config.tickTenthPred + 1)

/-- `RATE_INTERVAL_TICKS = TICK_HZ / 10`, which is 0.1 s (00_scope.md R7). -/
def Config.rateIntervalTicks : Nat := Config.tickHz / 10

/-- `WINDOW_BASE`: open, read by no rule (20_memory.md R68; log 6). -/
opaque Config.windowBase : Nat

/-- `TIME_W`: open, read by no rule of a model whose `now` is a natural number (70_reset_and_hazards.md R284; log 6). -/
opaque Config.timeW : Nat

/-- FREE: the steps taken between two turns of the PARSER: any finite number of steps of any agent, the PARSER's own
among them. Which enabled step comes next, the bytes the PRODUCER presents and the accesses of the host are all free
(93_implementation_defined.md I10, I11; 60_exceptions.md R262; DESIGN CHOICE, log 1). -/
opaque Config.otherSteps : Nat → List Instr

/-- FREE: the time a FRAME step draws at the PARSER's turn (93_implementation_defined.md I6; 43_gate_apply.md R191;
DESIGN CHOICE, log 1). -/
opaque Config.frameTime : Nat → Nat

end Sys2Proof
end

