-- ==== Sys2Proof/WellFormed.lean ====
section
/-! DEFINITION. Which instructions and which encoded steps are well formed. The table's three fallback rows apply only
where no other row of their format does (30_encoding.md R92, R103). -/

namespace Sys2Proof

/-- The type bytes of the nine channels: 0x50..0x58 (30_encoding.md R93). -/
def knownType (t : Byte) : Bool := 0x50 ≤ t.toNat && t.toNat ≤ 0x58

/-- The window offsets the register map names as reserved: 0x048..0x0F8 and 0x220..0x3F8 in steps of 8
(30_encoding.md R104, R109). -/
def reservedOffset (off : Nat) : Bool :=
  off % 8 == 0 && ((0x048 ≤ off && off ≤ 0x0F8) || (0x220 ≤ off && off ≤ 0x3F8))

/-- The window offset whose bits 9:3 are given (20_memory.md R60). -/
def offsetOf (o : BitVec 7) : Nat := 8 * o.toNat

/-- A well-formed instruction: UNKNOWN holds no type of the nine rows (42_decode.md R171), RD.RESERVED no offset of a
named register (30_encoding.md R109), WR.OTHER not the offset of CTRL (44_host.md R227). -/
def Instr.wf : Instr → Bool
  | .unknown _ _ typ _ _ => !knownType typ
  | .rdReserved offset => reservedOffset (offsetOf offset)
  | .wrOther offset _ => offset != 0
  | _ => true

/-- A host access the spec defines: eight bytes wide, at a multiple of 8 below 0x400 (20_memory.md R65). -/
def hostAccessOk (width off : Nat) : Bool := width == 8 && off % 8 == 0 && decide (off < 0x400)

/-- An encoded step the spec defines: a frame is eleven bytes (30_encoding.md R90), a host access is a defined one. -/
def StepWord.wf : StepWord → Bool
  | .frame _ bytes => bytes.length == 11
  | .hostRead width off => hostAccessOk width off
  | .hostWrite width off _ => hostAccessOk width off
  | _ => true

end Sys2Proof
end

