-- ==== Sys2Proof/Decode.lean ====
section
/-! DEFINITION. Field assembly, the frame word, the decoder (total, rejecting by name) and the encoder
(30_encoding.md R90-R96, R103-R109). -/

namespace Sys2Proof

/-! ## Field assembly (00_scope.md R11, 30_encoding.md R94) -/

/-- The 16 bits of `u16le`: the byte at the lower index is the less significant. -/
def le16 (b0 b1 : Byte) : Half := b1 ++ b0

/-- The 32 bits of `u32le`: lowest byte first. -/
def le32 (b0 b1 b2 b3 : Byte) : Word32 := (b3 ++ b2 ++ b1 ++ b0 : BitVec 32)

/-- The 64 bits of eight bytes, lowest first (the payload field of the UNKNOWN row). -/
def le64 (b0 b1 b2 b3 b4 b5 b6 b7 : Byte) : Word64 :=
  (b7 ++ b6 ++ b5 ++ b4 ++ b3 ++ b2 ++ b1 ++ b0 : BitVec 64)

/-- Byte `i` of a little-endian field: its bits `8i+7` down to `8i`. -/
def byteAt {n : Nat} (v : BitVec n) (i : Nat) : Byte := v.extractLsb' (8 * i) 8

/-! ## The frame (30_encoding.md R90-R92) -/

/-- `f[0]` to `f[10]` in order. -/
def Frame.bytes (f : Frame) : List Byte :=
  [f.sync, f.typ, f.p2, f.p3, f.p4, f.p5, f.p6, f.p7, f.p8, f.p9, f.cks]

/-- The frame of eleven bytes; none for another number of bytes. -/
def Frame.ofBytes? : List Byte → Option Frame
  | [b0, b1, b2, b3, b4, b5, b6, b7, b8, b9, b10] => some ⟨b0, b1, b2, b3, b4, b5, b6, b7, b8, b9, b10⟩
  | _ => none

/-- The 88-bit word `W` of a frame: `f[i]` is bits `8i+7` to `8i` (30_encoding.md R92). -/
def Frame.word (f : Frame) : BitVec 88 :=
  (f.cks ++ f.p9 ++ f.p8 ++ f.p7 ++ f.p6 ++ f.p5 ++ f.p4 ++ f.p3 ++ f.p2 ++ f.typ ++ f.sync : BitVec 88)

/-- The frame whose 88-bit word is given (30_encoding.md R92). -/
def Frame.ofWord (w : BitVec 88) : Frame :=
  ⟨byteAt w 0, byteAt w 1, byteAt w 2, byteAt w 3, byteAt w 4, byteAt w 5, byteAt w 6, byteAt w 7, byteAt w 8,
    byteAt w 9, byteAt w 10⟩

/-- The type byte of a channel (30_encoding.md R93). -/
def Channel.typeByte : Channel → Byte
  | .clock => 0x50
  | .acc => 0x51
  | .gyro => 0x52
  | .angle => 0x53
  | .mag => 0x54
  | .port => 0x55
  | .press => 0x56
  | .lonlat => 0x57
  | .gpsv => 0x58

/-- The channel a type byte names, none for every other value (30_encoding.md R93, R97; 42_decode.md R160). -/
def channelOf (t : Byte) : Option Channel :=
  match t.toNat with
  | 0x50 => some .clock
  | 0x51 => some .acc
  | 0x52 => some .gyro
  | 0x53 => some .angle
  | 0x54 => some .mag
  | 0x55 => some .port
  | 0x56 => some .press
  | 0x57 => some .lonlat
  | 0x58 => some .gpsv
  | _ => none

/-! ## Frames from payload fields (30_encoding.md R95, R96) -/

/-- The frame whose payload is four 16-bit lanes at `f[2]`, `f[4]`, `f[6]` and `f[8]`. -/
def halvesFrame (sync typ : Byte) (l0 l1 l2 l3 : Half) (cks : Byte) : Frame :=
  ⟨sync, typ, byteAt l0 0, byteAt l0 1, byteAt l1 0, byteAt l1 1, byteAt l2 0, byteAt l2 1, byteAt l3 0, byteAt l3 1,
    cks⟩

/-- The frame whose payload is two 32-bit lanes at `f[2]` and `f[6]`. -/
def wordsFrame (sync typ : Byte) (l0 l1 : Word32) (cks : Byte) : Frame :=
  ⟨sync, typ, byteAt l0 0, byteAt l0 1, byteAt l0 2, byteAt l0 3, byteAt l1 0, byteAt l1 1, byteAt l1 2, byteAt l1 3,
    cks⟩

/-- The CLOCK frame of its fields: six bytes and one 16-bit field at `f[8]`. -/
def clockFrame (sync yy month day hour minute second : Byte) (ms : Half) (cks : Byte) : Frame :=
  ⟨sync, Channel.clock.typeByte, yy, month, day, hour, minute, second, byteAt ms 0, byteAt ms 1, cks⟩

/-- The UNKNOWN frame of its fields: the type byte and the eight payload bytes. -/
def unknownFrame (sync typ : Byte) (payload : Word64) (cks : Byte) : Frame :=
  ⟨sync, typ, byteAt payload 0, byteAt payload 1, byteAt payload 2, byteAt payload 3, byteAt payload 4,
    byteAt payload 5, byteAt payload 6, byteAt payload 7, cks⟩

/-! ## The decoder -/

/-- The 16-bit lane `j` of a frame, `f[2+2j]` and `f[3+2j]` (30_encoding.md R96). -/
def Frame.half0 (f : Frame) : Half := le16 f.p2 f.p3

/-- See `Frame.half0`. -/
def Frame.half1 (f : Frame) : Half := le16 f.p4 f.p5

/-- See `Frame.half0`. -/
def Frame.half2 (f : Frame) : Half := le16 f.p6 f.p7

/-- See `Frame.half0`. -/
def Frame.half3 (f : Frame) : Half := le16 f.p8 f.p9

/-- The 32-bit lane `j` of a frame, the four bytes from `f[2+4j]` (30_encoding.md R96). -/
def Frame.word0 (f : Frame) : Word32 := le32 f.p2 f.p3 f.p4 f.p5

/-- See `Frame.word0`. -/
def Frame.word1 (f : Frame) : Word32 := le32 f.p6 f.p7 f.p8 f.p9

/-- The row of the opcode table a frame matches, with its fields: dispatch strictly on `f[1]`, the UNKNOWN row where no
type row matches (30_encoding.md R92, R93, R95). -/
def decodeFrame (now : Nat) (f : Frame) : Instr :=
  match channelOf f.typ with
  | some .clock => .clock now f.sync f.p2 f.p3 f.p4 f.p5 f.p6 f.p7 f.half3 f.cks
  | some .acc => .acc now f.sync f.half0 f.half1 f.half2 f.half3 f.cks
  | some .gyro => .gyro now f.sync f.half0 f.half1 f.half2 f.half3 f.cks
  | some .angle => .angle now f.sync f.half0 f.half1 f.half2 f.half3 f.cks
  | some .mag => .mag now f.sync f.half0 f.half1 f.half2 f.half3 f.cks
  | some .port => .port now f.sync f.half0 f.half1 f.half2 f.half3 f.cks
  | some .press => .press now f.sync f.word0 f.word1 f.cks
  | some .lonlat => .lonlat now f.sync f.word0 f.word1 f.cks
  | some .gpsv => .gpsv now f.sync f.half0 f.half1 f.half2 f.half3 f.cks
  | none => .unknown now f.sync f.typ (le64 f.p2 f.p3 f.p4 f.p5 f.p6 f.p7 f.p8 f.p9) f.cks

/-- The read a window offset selects (30_encoding.md R103, R104; 44_host.md R225). -/
def decodeRead (off : Nat) : Instr :=
  match off with
  | 0x000 => .rdCtrl
  | 0x008 => .rdStatus
  | 0x010 => .rdCntNoise
  | 0x018 => .rdCntOvf
  | 0x020 => .rdCntFrames
  | 0x028 => .rdCntCksum
  | 0x030 => .rdCntUnknown
  | 0x038 => .rdCntApplied
  | 0x040 => .rdCntSuppressed
  | 0x100 => .rdSnapAcceleration0
  | 0x108 => .rdSnapAcceleration1
  | 0x110 => .rdSnapAcceleration2
  | 0x118 => .rdSnapAcceleration3
  | 0x120 => .rdSnapAngularVelocity0
  | 0x128 => .rdSnapAngularVelocity1
  | 0x130 => .rdSnapAngularVelocity2
  | 0x138 => .rdSnapAngularVelocity3
  | 0x140 => .rdSnapAngle0
  | 0x148 => .rdSnapAngle1
  | 0x150 => .rdSnapAngle2
  | 0x158 => .rdSnapAngle3
  | 0x160 => .rdSnapMagneticField0
  | 0x168 => .rdSnapMagneticField1
  | 0x170 => .rdSnapMagneticField2
  | 0x178 => .rdSnapMagneticField3
  | 0x180 => .rdSnapDigitalPort0
  | 0x188 => .rdSnapDigitalPort1
  | 0x190 => .rdSnapDigitalPort2
  | 0x198 => .rdSnapDigitalPort3
  | 0x1A0 => .rdSnapTemperature
  | 0x1A8 => .rdSnapPressure
  | 0x1B0 => .rdSnapAltitude
  | 0x1B8 => .rdSnapGroundVelocity
  | 0x1C0 => .rdSnapGpsYaw
  | 0x1C8 => .rdSnapGpsHeight
  | 0x1D0 => .rdSnapLongitude
  | 0x1D8 => .rdSnapLatitude
  | 0x1E0 => .rdSnapDeviceClock0
  | 0x1E8 => .rdSnapDeviceClock1
  | 0x1F0 => .rdSnapDeviceClock2
  | 0x1F8 => .rdSnapDeviceClock3
  | 0x200 => .rdSnapDeviceClock4
  | 0x208 => .rdSnapDeviceClock5
  | 0x210 => .rdSnapDeviceClock6
  | 0x218 => .rdSnapChValid
  | _ => .rdReserved (BitVec.ofNat 7 (off / 8))

/-- The write a window offset selects (30_encoding.md R103; 44_host.md R221, R227). -/
def decodeWrite (off : Nat) (data : Word64) : Instr :=
  match off with
  | 0x000 => .wrCtrl data
  | _ => .wrOther (BitVec.ofNat 7 (off / 8)) data

/-- Why an encoded step is rejected. -/
inductive DecodeError where
  /-- A frame word that is not eleven bytes: every frame is (30_encoding.md R90, R98). -/
  | frameLength
  /-- A host access that is not eight bytes wide (20_memory.md R65). -/
  | hostWidth
  /-- A host access at an offset that is no multiple of eight (20_memory.md R65). -/
  | hostAlignment
  /-- A host access at an offset outside 0x000..0x3FF (20_memory.md R65). -/
  | hostOffset
deriving DecidableEq, Repr

/-- A host access is decoded only where the spec has a step for it (20_memory.md R65, 44_host.md R229). -/
def decodeHost (width off : Nat) (i : Instr) : Except DecodeError Instr :=
  if width ≠ 8 then .error .hostWidth
  else if off % 8 ≠ 0 then .error .hostAlignment
  else if 0x400 ≤ off then .error .hostOffset
  else .ok i

/-- The decoder: total, rejecting by name. -/
def decode : StepWord → Except DecodeError Instr
  | .frame now bytes =>
    match Frame.ofBytes? bytes with
    | some f => .ok (decodeFrame now f)
    | none => .error .frameLength
  | .hostRead width off => decodeHost width off (decodeRead off)
  | .hostWrite width off data => decodeHost width off (decodeWrite off data)
  | .push b => .ok (.push b)
  | .extract => .ok .extract
  | .frameStep now => .ok (.step now)
  | .reset => .ok .reset

/-! ## The encoder -/

/-- The encoded form of a well-formed instruction (30_encoding.md R92, R95, R103). -/
def encode : Instr → StepWord
  | .clock now sync yy month day hour minute second ms cks =>
    .frame now (clockFrame sync yy month day hour minute second ms cks).bytes
  | .acc now sync a b c d cks => .frame now (halvesFrame sync Channel.acc.typeByte a b c d cks).bytes
  | .gyro now sync a b c d cks => .frame now (halvesFrame sync Channel.gyro.typeByte a b c d cks).bytes
  | .angle now sync a b c d cks => .frame now (halvesFrame sync Channel.angle.typeByte a b c d cks).bytes
  | .mag now sync a b c d cks => .frame now (halvesFrame sync Channel.mag.typeByte a b c d cks).bytes
  | .port now sync a b c d cks => .frame now (halvesFrame sync Channel.port.typeByte a b c d cks).bytes
  | .press now sync a b cks => .frame now (wordsFrame sync Channel.press.typeByte a b cks).bytes
  | .lonlat now sync a b cks => .frame now (wordsFrame sync Channel.lonlat.typeByte a b cks).bytes
  | .gpsv now sync a b c d cks => .frame now (halvesFrame sync Channel.gpsv.typeByte a b c d cks).bytes
  | .unknown now sync typ payload cks => .frame now (unknownFrame sync typ payload cks).bytes
  | .rdCtrl => .hostRead 8 0x000
  | .rdStatus => .hostRead 8 0x008
  | .rdCntNoise => .hostRead 8 0x010
  | .rdCntOvf => .hostRead 8 0x018
  | .rdCntFrames => .hostRead 8 0x020
  | .rdCntCksum => .hostRead 8 0x028
  | .rdCntUnknown => .hostRead 8 0x030
  | .rdCntApplied => .hostRead 8 0x038
  | .rdCntSuppressed => .hostRead 8 0x040
  | .rdSnapAcceleration0 => .hostRead 8 0x100
  | .rdSnapAcceleration1 => .hostRead 8 0x108
  | .rdSnapAcceleration2 => .hostRead 8 0x110
  | .rdSnapAcceleration3 => .hostRead 8 0x118
  | .rdSnapAngularVelocity0 => .hostRead 8 0x120
  | .rdSnapAngularVelocity1 => .hostRead 8 0x128
  | .rdSnapAngularVelocity2 => .hostRead 8 0x130
  | .rdSnapAngularVelocity3 => .hostRead 8 0x138
  | .rdSnapAngle0 => .hostRead 8 0x140
  | .rdSnapAngle1 => .hostRead 8 0x148
  | .rdSnapAngle2 => .hostRead 8 0x150
  | .rdSnapAngle3 => .hostRead 8 0x158
  | .rdSnapMagneticField0 => .hostRead 8 0x160
  | .rdSnapMagneticField1 => .hostRead 8 0x168
  | .rdSnapMagneticField2 => .hostRead 8 0x170
  | .rdSnapMagneticField3 => .hostRead 8 0x178
  | .rdSnapDigitalPort0 => .hostRead 8 0x180
  | .rdSnapDigitalPort1 => .hostRead 8 0x188
  | .rdSnapDigitalPort2 => .hostRead 8 0x190
  | .rdSnapDigitalPort3 => .hostRead 8 0x198
  | .rdSnapTemperature => .hostRead 8 0x1A0
  | .rdSnapPressure => .hostRead 8 0x1A8
  | .rdSnapAltitude => .hostRead 8 0x1B0
  | .rdSnapGroundVelocity => .hostRead 8 0x1B8
  | .rdSnapGpsYaw => .hostRead 8 0x1C0
  | .rdSnapGpsHeight => .hostRead 8 0x1C8
  | .rdSnapLongitude => .hostRead 8 0x1D0
  | .rdSnapLatitude => .hostRead 8 0x1D8
  | .rdSnapDeviceClock0 => .hostRead 8 0x1E0
  | .rdSnapDeviceClock1 => .hostRead 8 0x1E8
  | .rdSnapDeviceClock2 => .hostRead 8 0x1F0
  | .rdSnapDeviceClock3 => .hostRead 8 0x1F8
  | .rdSnapDeviceClock4 => .hostRead 8 0x200
  | .rdSnapDeviceClock5 => .hostRead 8 0x208
  | .rdSnapDeviceClock6 => .hostRead 8 0x210
  | .rdSnapChValid => .hostRead 8 0x218
  | .rdReserved offset => .hostRead 8 (offsetOf offset)
  | .wrCtrl data => .hostWrite 8 0x000 data
  | .wrOther offset data => .hostWrite 8 (offsetOf offset) data
  | .push b => .push b
  | .extract => .extract
  | .step now => .frameStep now
  | .reset => .reset

/-! ## The order of steps drawn freely -/

/-- The step the PARSER attempts at its turn `k`: EXTRACT and FRAME alternately, so each comes again and again
(60_exceptions.md R263; log 11). One that is not enabled does not happen (log 2). -/
def Config.parserWord (k : Nat) : StepWord := if k % 2 = 0 then .extract else .frameStep (Config.frameTime k)

/-- The steps up to and with the PARSER's turn `k`: finitely many free ones, and then the PARSER's own. -/
def Config.turn (k : Nat) : List StepWord := (Config.otherSteps k).map encode ++ [Config.parserWord k]

/-- The `n`-th step drawn freely: the turns one after the other, each of at least one step, so the first `n + 1` turns
hold it (20_memory.md R71; 60_exceptions.md R262, R263; 93_implementation_defined.md I10; log 1, log 11). -/
def Config.environment (n : Nat) : StepWord := ((List.range (n + 1)).flatMap Config.turn).getD n .extract

/-! ## The opcode table's words -/

/-- The encoded step whose bits the opcode table numbers as `w` (log 10). A row of no bits is the all-zero frame, which
only the UNKNOWN row matches. A row of at most 8 bits is PUSH, whose one field is bits 7:0. A row of at most 16 bits is a host offset (10 bits) where its upper six bits are 0, and a frame's
first two bytes otherwise. A longer row is a frame. The bits above `nbits` are 0; the time a frame's step draws has no
bits and is 0; RD and WR rows have the same bits and only the strobe tells them apart: the read is answered. -/
def tableStepWord (nbits w : Nat) : StepWord :=
  if 0 < nbits ∧ nbits ≤ 8 then .push (BitVec.ofNat 8 w)
  else if 0 < nbits ∧ nbits ≤ 16 ∧ w % 0x10000 < 0x400 then .hostRead 8 (w % 0x400)
  else .frame 0 (Frame.ofWord (BitVec.ofNat 88 (w % 2 ^ nbits))).bytes

/-- The instruction the decoder reads from an instruction whose bits are `w`, numbered as spec/opcode_table.json
numbers them; none where the decoder refuses. -/
def decodeTableWord (nbits w : Nat) : Option Instr :=
  match decode (tableStepWord nbits w) with
  | .ok i => some i
  | .error _ => none

end Sys2Proof
end

