-- ==== Sys2Proof/Machine/State.lean ====
section
/-! DEFINITION. The architectural state of the frame decoder core (10_state.md), its reset values
(70_reset_and_hazards.md R280, R281), and the reasons a step can stop. -/

namespace Sys2Proof.Machine

/-- Four like elements, indexed 0..3 (10_state.md R26, R31). -/
structure Quad (α : Type) where
  x0 : α
  x1 : α
  x2 : α
  x3 : α
deriving DecidableEq, Repr

/-- The device clock, `deviceClock[0]` to `deviceClock[6]` (10_state.md R26). -/
structure DeviceClock where
  year : Int
  month : Int
  day : Int
  hour : Int
  minute : Int
  second : Int
  ms : Int
deriving DecidableEq, Repr

/-- SensorState, the latest decoded value per channel (10_state.md R26). A binary64 field is its bit pattern; an integer
field is the mathematical integer, whose range is an invariant (Safety.lean). -/
structure SensorState where
  acceleration : Quad Binary64
  angularVelocity : Quad Binary64
  angle : Quad Binary64
  magneticField : Quad Int
  digitalPort : Quad Int
  temperature : Binary64
  pressure : Int
  altitude : Binary64
  groundVelocity : Binary64
  gpsYaw : Binary64
  gpsHeight : Binary64
  longitude : Int
  latitude : Int
  deviceClock : DeviceClock
deriving DecidableEq, Repr

/-- A name for each field of SensorState (10_state.md R26; the registers of 30_encoding.md R108). -/
inductive SensorField where
  | acceleration (i : Fin 4)
  | angularVelocity (i : Fin 4)
  | angle (i : Fin 4)
  | magneticField (i : Fin 4)
  | digitalPort (i : Fin 4)
  | temperature
  | pressure
  | altitude
  | groundVelocity
  | gpsYaw
  | gpsHeight
  | longitude
  | latitude
  | deviceClock (i : Fin 7)
deriving DecidableEq, Repr

/-- A field's value: binary64 or a mathematical integer (10_state.md R26). -/
inductive FieldValue where
  | float (v : Binary64)
  | int (v : Int)
deriving DecidableEq, Repr

/-- One pair `field <- value` of a write set (42_decode.md head, R162-R170), the value of the field's own kind. -/
inductive FieldWrite where
  | acceleration (i : Fin 4) (v : Binary64)
  | angularVelocity (i : Fin 4) (v : Binary64)
  | angle (i : Fin 4) (v : Binary64)
  | magneticField (i : Fin 4) (v : Int)
  | digitalPort (i : Fin 4) (v : Int)
  | temperature (v : Binary64)
  | pressure (v : Int)
  | altitude (v : Binary64)
  | groundVelocity (v : Binary64)
  | gpsYaw (v : Binary64)
  | gpsHeight (v : Binary64)
  | longitude (v : Int)
  | latitude (v : Int)
  | deviceClock (i : Fin 7) (v : Int)
deriving DecidableEq, Repr

/-- What the frame decoder answers: `Known(t, W)` or `Rejected` (42_decode.md head, R160). -/
inductive Decoded where
  | known (t : Channel) (w : List FieldWrite)
  | rejected
deriving DecidableEq, Repr

/-- The terminal outcome of a frame (43_gate_apply.md R194; 60_exceptions.md R251). -/
inductive FrameOutcome where
  | applied
  | suppressed
  | droppedChecksum
  | droppedUnknown
deriving DecidableEq, Repr

/-- The gate's state for one gated channel (10_state.md R31). -/
structure GateEntry where
  last : Nat
  seen : Bool
deriving DecidableEq, Repr

/-- The sticky status bits (10_state.md R35). -/
structure Sticky where
  ovf : Bool
  noise : Bool
  ckerr : Bool
  unktype : Bool
deriving DecidableEq, Repr

/-- The seven diagnostic counters, 64 bits each (10_state.md R37). -/
structure Counters where
  noise : Word64
  ovf : Word64
  frames : Word64
  cksum : Word64
  unknown : Word64
  applied : Word64
  suppressed : Word64
deriving DecidableEq, Repr

/-- The snapshot bank (10_state.md R38). -/
structure SnapBank where
  sensor : SensorState
  chValid : BitVec 9
deriving DecidableEq, Repr

/-- The FDC state: the tuple of 10_state.md R20, and nothing else. BUSY and BUF_LEVEL are computed from it (R34, R36). -/
structure Fdc where
  buf : List Byte
  batch : List Frame
  sensor : SensorState
  gate : Quad GateEntry
  enable : Bool
  sticky : Sticky
  lastOutcome : BitVec 4
  chValid : BitVec 9
  cnt : Counters
  snap : SnapBank
deriving DecidableEq, Repr

/-- The machine's state: the FDC's, and three fields of the MODEL's own, none of them state of the spec: the value the
`h_rdata` port carries (44_host.md R220; log 3), the beginning of the total order of steps that is fixed
(20_memory.md R71; log 1), and how many steps were drawn from the free order `Config.environment` (log 1). -/
structure State extends Fdc where
  hRdata : Word64
  pending : List StepWord
  drawn : Nat
deriving DecidableEq, Repr

/-- Why a step stops with a fault: there is no reason. The FDC raises no exception (60_exceptions.md R254). -/
inductive Fault where
deriving DecidableEq, Repr

/-- Why a step has no meaning. -/
inductive Refusal where
  /-- Raised by exec's arm of an instruction that has no meaning yet; no arm raises it. Safe: the model stops. -/
  | notModelled (mnemonic : String)
  /-- Raised by step for an encoded step the decoder rejects, naming why: a host access the step relation has no step
  for (20_memory.md R65, 44_host.md R229), or a frame word that is not eleven bytes (30_encoding.md R90, R98). Safe:
  the model stops where the spec has no step. -/
  | rejected (why : DecodeError)
deriving DecidableEq, Repr

/-- Four equal elements. -/
def Quad.all {α : Type} (v : α) : Quad α := ⟨v, v, v, v⟩

/-- SensorState after reset: +0.0 or 0 in every field (10_state.md R26; 70_reset_and_hazards.md R281). -/
def SensorState.reset : SensorState where
  acceleration := Quad.all 0
  angularVelocity := Quad.all 0
  angle := Quad.all 0
  magneticField := Quad.all 0
  digitalPort := Quad.all 0
  temperature := 0
  pressure := 0
  altitude := 0
  groundVelocity := 0
  gpsYaw := 0
  gpsHeight := 0
  longitude := 0
  latitude := 0
  deviceClock := ⟨0, 0, 0, 0, 0, 0, 0⟩

/-- All sticky bits 0 (70_reset_and_hazards.md R280; 44_host.md R224). -/
def Sticky.clear : Sticky := ⟨false, false, false, false⟩

/-- All counters 0 (70_reset_and_hazards.md R280; 44_host.md R224). -/
def Counters.clear : Counters := ⟨0, 0, 0, 0, 0, 0, 0⟩

/-- The state RESET writes, every item of it (70_reset_and_hazards.md R280, R281). -/
def Fdc.reset : Fdc where
  buf := []
  batch := []
  sensor := SensorState.reset
  gate := Quad.all ⟨0, false⟩
  enable := false
  sticky := Sticky.clear
  lastOutcome := 0
  chValid := 0
  cnt := Counters.clear
  snap := ⟨SensorState.reset, 0⟩

/-- The machine right after reset (70_reset_and_hazards.md R280, R281). The model's own fields: nothing read yet
(DESIGN CHOICE, log 3), no step fixed and none drawn (DESIGN CHOICE, log 1). -/
def State.reset : State where
  toFdc := Fdc.reset
  hRdata := 0
  pending := []
  drawn := 0

end Sys2Proof.Machine
end

