-- ==== Sys2Proof/Machine/Operands.lean ====
section
/-! DEFINITION. The operand forms of the decoder: signed fields, binary64 rounding and scaling, the checksum, the fields
of SensorState by name, and their register form (00_scope.md R11, R12; 41_checksum.md R150; 42_decode.md R161). -/

namespace Sys2Proof.Machine

/-! ## Rounding to binary64 (00_scope.md R12) -/

/-- `n / d` rounded to the nearest natural number, ties to even. -/
def roundHalfEven (n d : Nat) : Nat :=
  let f := n / d
  let r := n % d
  if d < 2 * r ∨ (2 * r = d ∧ f % 2 = 1) then f + 1 else f

/-- The exponent `e` with `2^e <= p/q < 2^(e+1)`, for positive `p` and `q`. -/
def ratExponent (p q : Nat) : Int :=
  let e0 : Int := (Nat.log2 p : Int) - (Nat.log2 q : Int)
  let below : Bool := if 0 ≤ e0 then decide (p < q * 2 ^ e0.toNat) else decide (p * 2 ^ (-e0).toNat < q)
  if below then e0 - 1 else e0

/-- The bits of the binary64 value nearest to `p / q` without its sign, ties to even (00_scope.md R12): subnormal below
2^-1022, infinity above the largest finite value, as IEEE 754 has it. `q` is not 0. -/
def magnitudeBits (p q : Nat) : Nat :=
  if p = 0 then 0
  else
    let e := max (ratExponent p q) (-1022)
    let t := e - 52
    let m := if 0 ≤ t then roundHalfEven p (q * 2 ^ t.toNat) else roundHalfEven (p * 2 ^ (-t).toNat) q
    min ((e + 1022).toNat * 2 ^ 52 + m) (2047 * 2 ^ 52)

/-- `rne64(num / den)`: the binary64 value nearest to a rational number, ties to the even significand; `rne64(0)` is
+0.0 (00_scope.md R12). -/
def rne64 (num : Int) (den : Nat) : Binary64 :=
  BitVec.ofNat 64 ((if num < 0 then 2 ^ 63 else 0) + magnitudeBits num.natAbs den)

/-- The value of a scaled lane, `rne64(raw * N / D)` (42_decode.md R161). -/
def scaleLane (r : Ratio) (raw : Int) : Binary64 := rne64 (raw * r.num) r.den

/-! ## The checksum (41_checksum.md R150) -/

/-- The sum of `f[0]` to `f[9]` as integers. -/
def frameSum (f : Frame) : Nat := ((f.bytes.take 10).map BitVec.toNat).sum

/-- `valid(f)`: the low eight bits of the sum of the first ten bytes equal the eleventh byte. -/
def valid (f : Frame) : Bool := frameSum f % 256 == f.cks.toNat

/-! ## The fields of SensorState by name (10_state.md R26) -/

/-- Element `i`. -/
def Quad.get {α : Type} (q : Quad α) : Fin 4 → α
  | 0 => q.x0
  | 1 => q.x1
  | 2 => q.x2
  | 3 => q.x3

/-- The four elements with element `i` replaced. -/
def Quad.set {α : Type} (q : Quad α) (i : Fin 4) (v : α) : Quad α :=
  match i with
  | 0 => { q with x0 := v }
  | 1 => { q with x1 := v }
  | 2 => { q with x2 := v }
  | 3 => { q with x3 := v }

/-- `deviceClock[i]`. -/
def DeviceClock.get (c : DeviceClock) : Fin 7 → Int
  | 0 => c.year
  | 1 => c.month
  | 2 => c.day
  | 3 => c.hour
  | 4 => c.minute
  | 5 => c.second
  | 6 => c.ms

/-- The clock with `deviceClock[i]` replaced. -/
def DeviceClock.set (c : DeviceClock) (i : Fin 7) (v : Int) : DeviceClock :=
  match i with
  | 0 => { c with year := v }
  | 1 => { c with month := v }
  | 2 => { c with day := v }
  | 3 => { c with hour := v }
  | 4 => { c with minute := v }
  | 5 => { c with second := v }
  | 6 => { c with ms := v }

/-- The value a field holds. -/
def SensorState.get (S : SensorState) : SensorField → FieldValue
  | .acceleration i => .float (S.acceleration.get i)
  | .angularVelocity i => .float (S.angularVelocity.get i)
  | .angle i => .float (S.angle.get i)
  | .magneticField i => .int (S.magneticField.get i)
  | .digitalPort i => .int (S.digitalPort.get i)
  | .temperature => .float S.temperature
  | .pressure => .int S.pressure
  | .altitude => .float S.altitude
  | .groundVelocity => .float S.groundVelocity
  | .gpsYaw => .float S.gpsYaw
  | .gpsHeight => .float S.gpsHeight
  | .longitude => .int S.longitude
  | .latitude => .int S.latitude
  | .deviceClock i => .int (S.deviceClock.get i)

/-- The field a pair of a write set names. -/
def FieldWrite.field : FieldWrite → SensorField
  | .acceleration i _ => .acceleration i
  | .angularVelocity i _ => .angularVelocity i
  | .angle i _ => .angle i
  | .magneticField i _ => .magneticField i
  | .digitalPort i _ => .digitalPort i
  | .temperature _ => .temperature
  | .pressure _ => .pressure
  | .altitude _ => .altitude
  | .groundVelocity _ => .groundVelocity
  | .gpsYaw _ => .gpsYaw
  | .gpsHeight _ => .gpsHeight
  | .longitude _ => .longitude
  | .latitude _ => .latitude
  | .deviceClock i _ => .deviceClock i

/-- The value a pair of a write set gives its field. -/
def FieldWrite.value : FieldWrite → FieldValue
  | .acceleration _ v => .float v
  | .angularVelocity _ v => .float v
  | .angle _ v => .float v
  | .magneticField _ v => .int v
  | .digitalPort _ v => .int v
  | .temperature v => .float v
  | .pressure v => .int v
  | .altitude v => .float v
  | .groundVelocity v => .float v
  | .gpsYaw v => .float v
  | .gpsHeight v => .float v
  | .longitude v => .int v
  | .latitude v => .int v
  | .deviceClock _ v => .int v

/-- `S.<field> <- value` (00_scope.md R13). -/
def SensorState.write (S : SensorState) : FieldWrite → SensorState
  | .acceleration i v => { S with acceleration := S.acceleration.set i v }
  | .angularVelocity i v => { S with angularVelocity := S.angularVelocity.set i v }
  | .angle i v => { S with angle := S.angle.set i v }
  | .magneticField i v => { S with magneticField := S.magneticField.set i v }
  | .digitalPort i v => { S with digitalPort := S.digitalPort.set i v }
  | .temperature v => { S with temperature := v }
  | .pressure v => { S with pressure := v }
  | .altitude v => { S with altitude := v }
  | .groundVelocity v => { S with groundVelocity := v }
  | .gpsYaw v => { S with gpsYaw := v }
  | .gpsHeight v => { S with gpsHeight := v }
  | .longitude v => { S with longitude := v }
  | .latitude v => { S with latitude := v }
  | .deviceClock i v => { S with deviceClock := S.deviceClock.set i v }

/-- `apply(W)`: every pair of the write set, and nothing else (43_gate_apply.md R196). -/
def applyWrites (w : List FieldWrite) (S : SensorState) : SensorState := w.foldl SensorState.write S

/-- `enc(x)`: a binary64 field as its bit pattern, an integer field as `v mod 2^64` (30_encoding.md R108;
44_host.md R225). -/
def FieldValue.enc : FieldValue → Word64
  | .float v => v
  | .int v => BitVec.ofInt 64 v

/-! ## The decoder's write sets (42_decode.md R161-R170) -/

/-- CLOCK (42_decode.md R162). The bytes are unsigned, the millisecond signed; no field is range-checked. -/
def clockWrites (lut : ScaleLut) (yy month day hour minute second : Byte) (ms : Half) : List FieldWrite :=
  [.deviceClock 0 (lut.yearOffset + yy.toNat), .deviceClock 1 month.toNat, .deviceClock 2 day.toNat,
    .deviceClock 3 hour.toNat, .deviceClock 4 minute.toNat, .deviceClock 5 second.toNat, .deviceClock 6 ms.toInt]

/-- ACC (42_decode.md R163). -/
def accWrites (lut : ScaleLut) (a0 a1 a2 t : Half) : List FieldWrite :=
  [.acceleration 0 (scaleLane lut.acc a0.toInt), .acceleration 1 (scaleLane lut.acc a1.toInt),
    .acceleration 2 (scaleLane lut.acc a2.toInt), .temperature (scaleLane lut.accTemp t.toInt)]

/-- GYRO (42_decode.md R164). -/
def gyroWrites (lut : ScaleLut) (a0 a1 a2 t : Half) : List FieldWrite :=
  [.angularVelocity 0 (scaleLane lut.gyro a0.toInt), .angularVelocity 1 (scaleLane lut.gyro a1.toInt),
    .angularVelocity 2 (scaleLane lut.gyro a2.toInt), .temperature (scaleLane lut.gyroTemp t.toInt)]

/-- ANGLE (42_decode.md R165). -/
def angleWrites (lut : ScaleLut) (a0 a1 a2 t : Half) : List FieldWrite :=
  [.angle 0 (scaleLane lut.angle a0.toInt), .angle 1 (scaleLane lut.angle a1.toInt),
    .angle 2 (scaleLane lut.angle a2.toInt), .temperature (scaleLane lut.angleTemp t.toInt)]

/-- MAG (42_decode.md R166): three raw lanes and the scaled temperature. -/
def magWrites (lut : ScaleLut) (a0 a1 a2 t : Half) : List FieldWrite :=
  [.magneticField 0 a0.toInt, .magneticField 1 a1.toInt, .magneticField 2 a2.toInt,
    .temperature (scaleLane lut.magTemp t.toInt)]

/-- PORT (42_decode.md R167): four raw lanes. -/
def portWrites (a0 a1 a2 a3 : Half) : List FieldWrite :=
  [.digitalPort 0 a0.toInt, .digitalPort 1 a1.toInt, .digitalPort 2 a2.toInt, .digitalPort 3 a3.toInt]

/-- PRESS (42_decode.md R168). -/
def pressWrites (lut : ScaleLut) (p a : Word32) : List FieldWrite :=
  [.pressure p.toInt, .altitude (scaleLane lut.altitude a.toInt)]

/-- LONLAT (42_decode.md R169): both raw. -/
def lonlatWrites (lo la : Word32) : List FieldWrite := [.longitude lo.toInt, .latitude la.toInt]

/-- GPSV (42_decode.md R170). The bytes `f[8]` and `f[9]` are not read. -/
def gpsvWrites (lut : ScaleLut) (h y s : Half) : List FieldWrite :=
  [.gpsHeight (scaleLane lut.height h.toInt), .gpsYaw (scaleLane lut.yaw y.toInt), .groundVelocity (scaleLane lut.speed s.toInt)]

/-- `decode(f)`: dispatch on `f[1]` alone, Rejected for every value outside 0x50..0x58 (42_decode.md R160, R171). -/
def decodePayload (lut : ScaleLut) (f : Frame) : Decoded :=
  match channelOf f.typ with
  | some .clock => .known .clock (clockWrites lut f.p2 f.p3 f.p4 f.p5 f.p6 f.p7 f.half3)
  | some .acc => .known .acc (accWrites lut f.half0 f.half1 f.half2 f.half3)
  | some .gyro => .known .gyro (gyroWrites lut f.half0 f.half1 f.half2 f.half3)
  | some .angle => .known .angle (angleWrites lut f.half0 f.half1 f.half2 f.half3)
  | some .mag => .known .mag (magWrites lut f.half0 f.half1 f.half2 f.half3)
  | some .port => .known .port (portWrites f.half0 f.half1 f.half2 f.half3)
  | some .press => .known .press (pressWrites lut f.word0 f.word1)
  | some .lonlat => .known .lonlat (lonlatWrites f.word0 f.word1)
  | some .gpsv => .known .gpsv (gpsvWrites lut f.half0 f.half1 f.half2)
  | none => .rejected

end Sys2Proof.Machine
end

