-- ==== Sys2Proof/Machine/Flags.lean ====
section
/-! DEFINITION. The flags of the frame decoder core: the CTRL and STATUS words, the outcome codes, and recording an
outcome (10_state.md R33-R37; 30_encoding.md R105, R106; 60_exceptions.md R251). -/

namespace Sys2Proof.Machine

/-- A flag as a register bit. -/
def bit64 (b : Bool) : Word64 := if b then 1 else 0

/-- `STATUS.BUSY`: computed, 1 while `batch` is non-empty (10_state.md R34). -/
def busy (s : Fdc) : Bool := !s.batch.isEmpty

/-- `STATUS.BUF_LEVEL`: computed, `min(len(buf), 2^32 - 1)` (10_state.md R36). -/
def bufLevel (s : Fdc) : Nat := min s.buf.length (2 ^ 32 - 1)

/-- What a read of CTRL returns: `zext_64(ENABLE)` (30_encoding.md R105). -/
def ctrlWord (s : Fdc) : Word64 := bit64 s.enable

/-- The STATUS word (44_host.md R226; 30_encoding.md R106). -/
def statusWord (s : Fdc) : Word64 :=
  (BitVec.ofNat 64 (bufLevel s) <<< 32) ||| (s.chValid.setWidth 64 <<< 16) ||| (s.lastOutcome.setWidth 64 <<< 8)
    ||| (bit64 s.sticky.unktype <<< 4) ||| (bit64 s.sticky.ckerr <<< 3) ||| (bit64 s.sticky.noise <<< 2)
    ||| (bit64 s.sticky.ovf <<< 1) ||| bit64 (busy s)

/-- The code of an outcome as `STATUS.LAST_OUTCOME` holds it (60_exceptions.md R251). -/
def outcomeCode : FrameOutcome → BitVec 4
  | .applied => 1
  | .suppressed => 2
  | .droppedChecksum => 3
  | .droppedUnknown => 4

/-- The one counter an outcome increments, wrapping modulo 2^64 (60_exceptions.md R251; 10_state.md R37). -/
def countOutcome (o : FrameOutcome) (c : Counters) : Counters :=
  match o with
  | .applied => { c with applied := c.applied + 1 }
  | .suppressed => { c with suppressed := c.suppressed + 1 }
  | .droppedChecksum => { c with cksum := c.cksum + 1 }
  | .droppedUnknown => { c with unknown := c.unknown + 1 }

/-- The sticky bit a drop sets (60_exceptions.md R251; 10_state.md R35). -/
def stickyOutcome (o : FrameOutcome) (b : Sticky) : Sticky :=
  match o with
  | .applied => b
  | .suppressed => b
  | .droppedChecksum => { b with ckerr := true }
  | .droppedUnknown => { b with unktype := true }

/-- The number `k` of the type byte `0x50 + k` of a channel (10_state.md R36). -/
def channelIndex : Channel → Nat
  | .clock => 0
  | .acc => 1
  | .gyro => 2
  | .angle => 3
  | .mag => 4
  | .port => 5
  | .press => 6
  | .lonlat => 7
  | .gpsv => 8

/-- `STATUS.CH_VALID` with the bit of a channel set (10_state.md R36). -/
def setValid (t : Channel) (v : BitVec 9) : BitVec 9 := v ||| (1 <<< channelIndex t)

end Sys2Proof.Machine
end

