-- ==== Sys2Proof/Machine/Ops.lean ====
section
/-! DEFINITION. The shared operations of the frame decoder core: the byte append, the sync scan and slicing, the rate
gate, the FRAME step, the host window, reset, and the fetch of the next step. The parameters of 00_scope.md R7 are
arguments here. -/

namespace Sys2Proof.Machine

/-! ## The byte stream buffer (40_extract.md) -/

/-- PUSH (40_extract.md R121): nothing while stopped; on a full buffer the oldest byte is dropped, counted and flagged;
the byte goes to the tail. -/
def pushByte (cap : Option Nat) (b : Byte) (s : Fdc) : Fdc :=
  if !s.enable then s
  else if cap = some s.buf.length then
    { s with
      buf := s.buf.drop 1 ++ [b]
      cnt := { s.cnt with ovf := s.cnt.ovf + 1 }
      sticky := { s.sticky with ovf := true } }
  else { s with buf := s.buf ++ [b] }

/-- `isSync(buf, i)` (40_extract.md R124). -/
def isSync (mask : Byte) (buf : List Byte) (i : Nat) : Bool :=
  decide (i + 1 < buf.length) && buf.getD i 0 == Config.syncByte && (buf.getD (i + 1) 0 &&& mask) == Config.syncMatch

/-- The least sync index `i` with `0 <= i <= len(buf) - 2`, if there is one (40_extract.md R125). -/
def scan (mask : Byte) (buf : List Byte) : Option Nat := (List.range (buf.length - 1)).find? (isSync mask buf)

/-- The eleven bytes `buf[i : i+11]` as a frame, where they are all there (40_extract.md R127). -/
def frameAt (buf : List Byte) (i : Nat) : Frame :=
  ⟨buf.getD i 0, buf.getD (i + 1) 0, buf.getD (i + 2) 0, buf.getD (i + 3) 0, buf.getD (i + 4) 0, buf.getD (i + 5) 0,
    buf.getD (i + 6) 0, buf.getD (i + 7) 0, buf.getD (i + 8) 0, buf.getD (i + 9) 0, buf.getD (i + 10) 0⟩

/-- The frames `buf[h + 11*k : h + 11*k + 11]` for `k` below `count` (40_extract.md R127). -/
def sliceFrames (buf : List Byte) (h count : Nat) : List Frame :=
  (List.range count).map fun k => frameAt buf (h + Config.frameLen * k)

/-- How many whole frames there are from index `h` on (40_extract.md R126). -/
def frameCount (buf : List Byte) (h : Nat) : Nat := (buf.length - h) / Config.frameLen

/-- Whether EXTRACT is enabled: started, and no batch in progress (40_extract.md R123). -/
def extractEnabled (s : Fdc) : Bool := s.enable && s.batch.isEmpty

/-- Whether FRAME is enabled: a batch in progress, whatever ENABLE is (43_gate_apply.md R195; 60_exceptions.md R262). -/
def frameEnabled (s : Fdc) : Bool := !s.batch.isEmpty

/-- EXTRACT (40_extract.md R127). Not enabled, no sync index, or no whole frame after it: no state change. -/
def extractFrames (mask : Byte) (s : Fdc) : Fdc :=
  if !extractEnabled s then s
  else
    match scan mask s.buf with
    | none => s
    | some h =>
      let count := frameCount s.buf h
      if count = 0 then s
      else
        { s with
          batch := sliceFrames s.buf h count
          buf := s.buf.drop (h + Config.frameLen * count)
          cnt := { s.cnt with
            noise := s.cnt.noise + BitVec.ofNat 64 h
            frames := s.cnt.frames + BitVec.ofNat 64 count }
          sticky := { s.sticky with noise := s.sticky.noise || decide (0 < h) } }

/-! ## The rate gate (43_gate_apply.md R190-R192) -/

/-- The gate index of a gated channel, none for a channel that bypasses the gate (43_gate_apply.md R190). -/
def gateIndex : Channel → Option (Fin 4)
  | .clock => none
  | .acc => some 0
  | .gyro => some 1
  | .angle => some 2
  | .mag => some 3
  | .port => none
  | .press => none
  | .lonlat => none
  | .gpsv => none

/-- `accept(g, now)`, with the difference taken in the integers (43_gate_apply.md R192). -/
def gateAccepts (interval : Nat) (e : GateEntry) (now : Nat) : Bool :=
  !e.seen || decide ((interval : Int) ≤ (now : Int) - (e.last : Int))

/-- What acceptance writes: `G.last[g] <- now` and `G.seen[g] <- 1` (43_gate_apply.md R192). -/
def gateRecord (t : Channel) (now : Nat) (G : Quad GateEntry) : Quad GateEntry :=
  match gateIndex t with
  | none => G
  | some g => G.set g ⟨now, true⟩

/-! ## The FRAME step (43_gate_apply.md R194-R196) -/

/-- The terminal outcome of a frame: the tests in the order checksum, type, gate (43_gate_apply.md R194;
60_exceptions.md R253). -/
def frameOutcome (interval now : Nat) (G : Quad GateEntry) (f : Frame) (d : Decoded) : FrameOutcome :=
  if !valid f then .droppedChecksum
  else
    match d with
    | .rejected => .droppedUnknown
    | .known t _ =>
      match gateIndex t with
      | none => .applied
      | some g => if gateAccepts interval (G.get g) now then .applied else .suppressed

/-- Recording an outcome, the one operation that stands where an ISA would take an exception (00_scope.md R13;
60_exceptions.md R251, R254): its code, its counter and its sticky bit. -/
def recordOutcome (o : FrameOutcome) (s : Fdc) : Fdc :=
  { s with lastOutcome := outcomeCode o, cnt := countOutcome o s.cnt, sticky := stickyOutcome o s.sticky }

/-- What an Applied frame writes besides its outcome: the gate of its channel, its write set, and its valid bit
(43_gate_apply.md R195, R196). -/
def applyFrame (t : Channel) (w : List FieldWrite) (now : Nat) (s : Fdc) : Fdc :=
  { s with sensor := applyWrites w s.sensor, gate := gateRecord t now s.gate, chValid := setValid t s.chValid }

/-- The FRAME step on the head frame `f` of the batch, whose decode is `d` (43_gate_apply.md R195). -/
def retireFrame (interval now : Nat) (f : Frame) (d : Decoded) (s : Fdc) : Fdc :=
  let o := frameOutcome interval now s.gate f d
  let s1 := recordOutcome o { s with batch := s.batch.tail }
  match o, d with
  | .applied, .known t w => applyFrame t w now s1
  | _, _ => s1

/-- The FRAME step on the frame `f`, enabled exactly when `f` is the head of the batch (43_gate_apply.md R195). A step
that is not enabled does not happen (60_exceptions.md R254; log 2, log 9). -/
def frameStepOn (interval now : Nat) (f : Frame) (d : Decoded) (s : Fdc) : Fdc :=
  if s.batch.head? = some f then retireFrame interval now f d s else s

/-- FRAME(now): the step on whatever frame heads the batch; with an empty batch it does not happen
(43_gate_apply.md R195; 60_exceptions.md R254; log 2). -/
def frameStepHead (interval : Nat) (lut : ScaleLut) (now : Nat) (s : Fdc) : Fdc :=
  match s.batch with
  | [] => s
  | f :: _ => retireFrame interval now f (decodePayload lut f) s

/-! ## The host window (44_host.md) -/

/-- The snapshot bank's copy of SensorState and CH_VALID (44_host.md R223). -/
def takeSnapshot (s : Fdc) : SnapBank := ⟨s.sensor, s.chValid⟩

/-- A write of CTRL (44_host.md R221): one atomic step, every right-hand side read in the state before it; bits 63:4
ignored. -/
def writeCtrl (v : Word64) (s : Fdc) : Fdc :=
  { s with
    snap := if v.getLsbD 1 then takeSnapshot s else s.snap
    cnt := if v.getLsbD 2 then Counters.clear else s.cnt
    sticky := if v.getLsbD 3 then Sticky.clear else s.sticky
    enable := v.getLsbD 0 }

/-- A write of any offset (44_host.md R221, R227): every offset but CTRL's ignores it. -/
def memWrite (off : Nat) (v : Word64) (s : Fdc) : Fdc := if off = 0x000 then writeCtrl v s else s

/-- The SensorState field whose copy the snapshot register at an offset holds (30_encoding.md R108). -/
def snapField (off : Nat) : Option SensorField :=
  match off with
  | 0x100 => some (.acceleration 0)
  | 0x108 => some (.acceleration 1)
  | 0x110 => some (.acceleration 2)
  | 0x118 => some (.acceleration 3)
  | 0x120 => some (.angularVelocity 0)
  | 0x128 => some (.angularVelocity 1)
  | 0x130 => some (.angularVelocity 2)
  | 0x138 => some (.angularVelocity 3)
  | 0x140 => some (.angle 0)
  | 0x148 => some (.angle 1)
  | 0x150 => some (.angle 2)
  | 0x158 => some (.angle 3)
  | 0x160 => some (.magneticField 0)
  | 0x168 => some (.magneticField 1)
  | 0x170 => some (.magneticField 2)
  | 0x178 => some (.magneticField 3)
  | 0x180 => some (.digitalPort 0)
  | 0x188 => some (.digitalPort 1)
  | 0x190 => some (.digitalPort 2)
  | 0x198 => some (.digitalPort 3)
  | 0x1A0 => some (.temperature)
  | 0x1A8 => some (.pressure)
  | 0x1B0 => some (.altitude)
  | 0x1B8 => some (.groundVelocity)
  | 0x1C0 => some (.gpsYaw)
  | 0x1C8 => some (.gpsHeight)
  | 0x1D0 => some (.longitude)
  | 0x1D8 => some (.latitude)
  | 0x1E0 => some (.deviceClock 0)
  | 0x1E8 => some (.deviceClock 1)
  | 0x1F0 => some (.deviceClock 2)
  | 0x1F8 => some (.deviceClock 3)
  | 0x200 => some (.deviceClock 4)
  | 0x208 => some (.deviceClock 5)
  | 0x210 => some (.deviceClock 6)
  | _ => none

/-- `MemRead(off, 8)`, the value the register map gives for an offset (44_host.md R225): the snapshot registers read the
bank, reserved offsets read 0. -/
def memRead (s : Fdc) (off : Nat) : Word64 :=
  match off with
  | 0x000 => ctrlWord s
  | 0x008 => statusWord s
  | 0x010 => s.cnt.noise
  | 0x018 => s.cnt.ovf
  | 0x020 => s.cnt.frames
  | 0x028 => s.cnt.cksum
  | 0x030 => s.cnt.unknown
  | 0x038 => s.cnt.applied
  | 0x040 => s.cnt.suppressed
  | 0x218 => s.snap.chValid.setWidth 64
  | _ =>
    match snapField off with
    | some field => (s.snap.sensor.get field).enc
    | none => 0

/-- The byte of the window at byte offset `a`: the window is little-endian, the byte at `off + i` holds bits `8i+7` to
`8i` of the register at `off` (20_memory.md R62). -/
def windowByte (s : Fdc) (a : Nat) : Byte := byteAt (memRead s (a - a % 8)) (a % 8)

/-! ## Steps of the machine -/

/-- A step that changes the FDC's state by `f` and nothing of the model's own. -/
def onFdc (f : Fdc → Fdc) (s : State) : Host.Outcome State Fault Refusal := .next { s with toFdc := f s.toFdc }

/-- A host read of an offset: the FDC's state is unchanged, the value goes to the `h_rdata` port (20_memory.md R67;
44_host.md R220, R225; log 3). -/
def hostRead (off : Nat) (s : State) : Host.Outcome State Fault Refusal :=
  .next { s with hRdata := memRead s.toFdc off }

/-- RESET (70_reset_and_hazards.md R280): every piece of the FDC's state at its reset value. -/
def resetFdc (_ : Fdc) : Fdc := Fdc.reset

/-- The fetch: the next step in the total order, and the state from which it is taken: the first of the fixed steps,
and where none is left, one drawn from the free and weakly fair order (20_memory.md R71; 60_exceptions.md R262, R263;
log 1, log 11). -/
def fetch (s : State) : StepWord × State :=
  match s.pending with
  | w :: rest => (w, { s with pending := rest })
  | [] => (Config.environment s.drawn, { s with drawn := s.drawn + 1 })

/-- The state in which the step `w` is the next one; where `w` is the FRAME step on a given frame, that frame heads the
batch (log 10). -/
def stage (w : StepWord) (s : State) : State :=
  match w with
  | .frame _ bytes =>
    match Frame.ofBytes? bytes with
    | some f => { s with pending := w :: s.pending, batch := f :: s.batch }
    | none => { s with pending := w :: s.pending }
  | _ => { s with pending := w :: s.pending }

end Sys2Proof.Machine
end

