-- ==== Sys2Proof/Machine/Agents.lean ====
section
/-! DEFINITION. The meanings of the agent steps PUSH, EXTRACT, STEP and RESET (60_exceptions.md R262). -/

namespace Sys2Proof.Machine

/-- PUSH (40_extract.md R121). -/
def execPush (b : Byte) (s : State) : Host.Outcome State Fault Refusal := onFdc (pushByte Config.bufCap b) s

/-- EXTRACT (40_extract.md R127). -/
def execExtract (s : State) : Host.Outcome State Fault Refusal := onFdc (extractFrames Config.syncMask) s

/-- STEP, the FRAME step on the head of the batch (43_gate_apply.md R195). -/
def execStep (now : Nat) (s : State) : Host.Outcome State Fault Refusal :=
  onFdc (frameStepHead Config.rateIntervalTicks Config.scaleLut now) s

/-- RESET (70_reset_and_hazards.md R280). The model's own fields are no state of the FDC and stay (log 3, log 7). -/
def execReset (s : State) : Host.Outcome State Fault Refusal := onFdc resetFdc s

end Sys2Proof.Machine
end

