-- ==== Sys2Proof/Machine/Frames.lean ====
section
/-! DEFINITION. The meanings of the ten frame rows: the FRAME step (43_gate_apply.md R195) on the frame with the given
fields, with the write set of its type (42_decode.md R162-R171). -/

namespace Sys2Proof.Machine

/-- The FRAME step on a frame of a known type, with the FDC's parameters. -/
def execKnown (now : Nat) (f : Frame) (t : Channel) (w : List FieldWrite) (s : State) :
    Host.Outcome State Fault Refusal :=
  onFdc (frameStepOn Config.rateIntervalTicks now f (.known t w)) s

/-- CLOCK (42_decode.md R162), not gated. -/
def execClock (now : Nat) (sync yy month day hour minute second : Byte) (ms : Half) (cks : Byte) (s : State) :
    Host.Outcome State Fault Refusal :=
  execKnown now (clockFrame sync yy month day hour minute second ms cks) .clock
    (clockWrites Config.scaleLut yy month day hour minute second ms) s

/-- ACC (42_decode.md R163), gated (43_gate_apply.md R192). -/
def execAcc (now : Nat) (sync : Byte) (l0 l1 l2 l3 : Half) (cks : Byte) (s : State) :
    Host.Outcome State Fault Refusal :=
  execKnown now (halvesFrame sync Channel.acc.typeByte l0 l1 l2 l3 cks) .acc (accWrites Config.scaleLut l0 l1 l2 l3) s

/-- GYRO (42_decode.md R164), gated (43_gate_apply.md R192). -/
def execGyro (now : Nat) (sync : Byte) (l0 l1 l2 l3 : Half) (cks : Byte) (s : State) :
    Host.Outcome State Fault Refusal :=
  execKnown now (halvesFrame sync Channel.gyro.typeByte l0 l1 l2 l3 cks) .gyro (gyroWrites Config.scaleLut l0 l1 l2 l3) s

/-- ANGLE (42_decode.md R165), gated (43_gate_apply.md R192). -/
def execAngle (now : Nat) (sync : Byte) (l0 l1 l2 l3 : Half) (cks : Byte) (s : State) :
    Host.Outcome State Fault Refusal :=
  execKnown now (halvesFrame sync Channel.angle.typeByte l0 l1 l2 l3 cks) .angle (angleWrites Config.scaleLut l0 l1 l2 l3) s

/-- MAG (42_decode.md R166), gated (43_gate_apply.md R192). -/
def execMag (now : Nat) (sync : Byte) (l0 l1 l2 l3 : Half) (cks : Byte) (s : State) :
    Host.Outcome State Fault Refusal :=
  execKnown now (halvesFrame sync Channel.mag.typeByte l0 l1 l2 l3 cks) .mag (magWrites Config.scaleLut l0 l1 l2 l3) s

/-- PORT (42_decode.md R167), not gated. -/
def execPort (now : Nat) (sync : Byte) (l0 l1 l2 l3 : Half) (cks : Byte) (s : State) :
    Host.Outcome State Fault Refusal :=
  execKnown now (halvesFrame sync Channel.port.typeByte l0 l1 l2 l3 cks) .port (portWrites l0 l1 l2 l3) s

/-- GPSV (42_decode.md R170), not gated. -/
def execGpsv (now : Nat) (sync : Byte) (l0 l1 l2 l3 : Half) (cks : Byte) (s : State) :
    Host.Outcome State Fault Refusal :=
  execKnown now (halvesFrame sync Channel.gpsv.typeByte l0 l1 l2 l3 cks) .gpsv (gpsvWrites Config.scaleLut l0 l1 l2) s

/-- PRESS (42_decode.md R168), not gated. -/
def execPress (now : Nat) (sync : Byte) (l0 l1 : Word32) (cks : Byte) (s : State) : Host.Outcome State Fault Refusal :=
  execKnown now (wordsFrame sync Channel.press.typeByte l0 l1 cks) .press (pressWrites Config.scaleLut l0 l1) s

/-- LONLAT (42_decode.md R169), not gated. -/
def execLonlat (now : Nat) (sync : Byte) (l0 l1 : Word32) (cks : Byte) (s : State) : Host.Outcome State Fault Refusal :=
  execKnown now (wordsFrame sync Channel.lonlat.typeByte l0 l1 cks) .lonlat (lonlatWrites l0 l1) s

/-- UNKNOWN (42_decode.md R171): Rejected, so a valid frame is dropped as of unknown type. -/
def execUnknown (now : Nat) (sync typ : Byte) (payload : Word64) (cks : Byte) (s : State) :
    Host.Outcome State Fault Refusal :=
  onFdc (frameStepOn Config.rateIntervalTicks now (unknownFrame sync typ payload cks) .rejected) s

end Sys2Proof.Machine
end

