-- ==== Sys2Proof/Machine/HostReads.lean ====
section
/-! DEFINITION. The meanings of the host reads, one per register of the window (44_host.md R225, R226; 30_encoding.md
R104-R109). -/

namespace Sys2Proof.Machine

/-- RD.CTRL, offset 0x000 (44_host.md R225). -/
def execRdCtrl (s : State) : Host.Outcome State Fault Refusal := hostRead 0x000 s

/-- RD.STATUS, offset 0x008 (44_host.md R225). -/
def execRdStatus (s : State) : Host.Outcome State Fault Refusal := hostRead 0x008 s

/-- RD.CNT_NOISE, offset 0x010 (44_host.md R225). -/
def execRdCntNoise (s : State) : Host.Outcome State Fault Refusal := hostRead 0x010 s

/-- RD.CNT_OVF, offset 0x018 (44_host.md R225). -/
def execRdCntOvf (s : State) : Host.Outcome State Fault Refusal := hostRead 0x018 s

/-- RD.CNT_FRAMES, offset 0x020 (44_host.md R225). -/
def execRdCntFrames (s : State) : Host.Outcome State Fault Refusal := hostRead 0x020 s

/-- RD.CNT_CKSUM, offset 0x028 (44_host.md R225). -/
def execRdCntCksum (s : State) : Host.Outcome State Fault Refusal := hostRead 0x028 s

/-- RD.CNT_UNKNOWN, offset 0x030 (44_host.md R225). -/
def execRdCntUnknown (s : State) : Host.Outcome State Fault Refusal := hostRead 0x030 s

/-- RD.CNT_APPLIED, offset 0x038 (44_host.md R225). -/
def execRdCntApplied (s : State) : Host.Outcome State Fault Refusal := hostRead 0x038 s

/-- RD.CNT_SUPPRESSED, offset 0x040 (44_host.md R225). -/
def execRdCntSuppressed (s : State) : Host.Outcome State Fault Refusal := hostRead 0x040 s

/-- RD.SNAP.acceleration[0], offset 0x100 (44_host.md R225). -/
def execRdSnapAcceleration0 (s : State) : Host.Outcome State Fault Refusal := hostRead 0x100 s

/-- RD.SNAP.acceleration[1], offset 0x108 (44_host.md R225). -/
def execRdSnapAcceleration1 (s : State) : Host.Outcome State Fault Refusal := hostRead 0x108 s

/-- RD.SNAP.acceleration[2], offset 0x110 (44_host.md R225). -/
def execRdSnapAcceleration2 (s : State) : Host.Outcome State Fault Refusal := hostRead 0x110 s

/-- RD.SNAP.acceleration[3], offset 0x118 (44_host.md R225). -/
def execRdSnapAcceleration3 (s : State) : Host.Outcome State Fault Refusal := hostRead 0x118 s

/-- RD.SNAP.angularVelocity[0], offset 0x120 (44_host.md R225). -/
def execRdSnapAngularVelocity0 (s : State) : Host.Outcome State Fault Refusal := hostRead 0x120 s

/-- RD.SNAP.angularVelocity[1], offset 0x128 (44_host.md R225). -/
def execRdSnapAngularVelocity1 (s : State) : Host.Outcome State Fault Refusal := hostRead 0x128 s

/-- RD.SNAP.angularVelocity[2], offset 0x130 (44_host.md R225). -/
def execRdSnapAngularVelocity2 (s : State) : Host.Outcome State Fault Refusal := hostRead 0x130 s

/-- RD.SNAP.angularVelocity[3], offset 0x138 (44_host.md R225). -/
def execRdSnapAngularVelocity3 (s : State) : Host.Outcome State Fault Refusal := hostRead 0x138 s

/-- RD.SNAP.angle[0], offset 0x140 (44_host.md R225). -/
def execRdSnapAngle0 (s : State) : Host.Outcome State Fault Refusal := hostRead 0x140 s

/-- RD.SNAP.angle[1], offset 0x148 (44_host.md R225). -/
def execRdSnapAngle1 (s : State) : Host.Outcome State Fault Refusal := hostRead 0x148 s

/-- RD.SNAP.angle[2], offset 0x150 (44_host.md R225). -/
def execRdSnapAngle2 (s : State) : Host.Outcome State Fault Refusal := hostRead 0x150 s

/-- RD.SNAP.angle[3], offset 0x158 (44_host.md R225). -/
def execRdSnapAngle3 (s : State) : Host.Outcome State Fault Refusal := hostRead 0x158 s

/-- RD.SNAP.magneticField[0], offset 0x160 (44_host.md R225). -/
def execRdSnapMagneticField0 (s : State) : Host.Outcome State Fault Refusal := hostRead 0x160 s

/-- RD.SNAP.magneticField[1], offset 0x168 (44_host.md R225). -/
def execRdSnapMagneticField1 (s : State) : Host.Outcome State Fault Refusal := hostRead 0x168 s

/-- RD.SNAP.magneticField[2], offset 0x170 (44_host.md R225). -/
def execRdSnapMagneticField2 (s : State) : Host.Outcome State Fault Refusal := hostRead 0x170 s

/-- RD.SNAP.magneticField[3], offset 0x178 (44_host.md R225). -/
def execRdSnapMagneticField3 (s : State) : Host.Outcome State Fault Refusal := hostRead 0x178 s

/-- RD.SNAP.digitalPort[0], offset 0x180 (44_host.md R225). -/
def execRdSnapDigitalPort0 (s : State) : Host.Outcome State Fault Refusal := hostRead 0x180 s

/-- RD.SNAP.digitalPort[1], offset 0x188 (44_host.md R225). -/
def execRdSnapDigitalPort1 (s : State) : Host.Outcome State Fault Refusal := hostRead 0x188 s

/-- RD.SNAP.digitalPort[2], offset 0x190 (44_host.md R225). -/
def execRdSnapDigitalPort2 (s : State) : Host.Outcome State Fault Refusal := hostRead 0x190 s

/-- RD.SNAP.digitalPort[3], offset 0x198 (44_host.md R225). -/
def execRdSnapDigitalPort3 (s : State) : Host.Outcome State Fault Refusal := hostRead 0x198 s

/-- RD.SNAP.temperature, offset 0x1A0 (44_host.md R225). -/
def execRdSnapTemperature (s : State) : Host.Outcome State Fault Refusal := hostRead 0x1A0 s

/-- RD.SNAP.pressure, offset 0x1A8 (44_host.md R225). -/
def execRdSnapPressure (s : State) : Host.Outcome State Fault Refusal := hostRead 0x1A8 s

/-- RD.SNAP.altitude, offset 0x1B0 (44_host.md R225). -/
def execRdSnapAltitude (s : State) : Host.Outcome State Fault Refusal := hostRead 0x1B0 s

/-- RD.SNAP.groundVelocity, offset 0x1B8 (44_host.md R225). -/
def execRdSnapGroundVelocity (s : State) : Host.Outcome State Fault Refusal := hostRead 0x1B8 s

/-- RD.SNAP.gpsYaw, offset 0x1C0 (44_host.md R225). -/
def execRdSnapGpsYaw (s : State) : Host.Outcome State Fault Refusal := hostRead 0x1C0 s

/-- RD.SNAP.gpsHeight, offset 0x1C8 (44_host.md R225). -/
def execRdSnapGpsHeight (s : State) : Host.Outcome State Fault Refusal := hostRead 0x1C8 s

/-- RD.SNAP.longitude, offset 0x1D0 (44_host.md R225). -/
def execRdSnapLongitude (s : State) : Host.Outcome State Fault Refusal := hostRead 0x1D0 s

/-- RD.SNAP.latitude, offset 0x1D8 (44_host.md R225). -/
def execRdSnapLatitude (s : State) : Host.Outcome State Fault Refusal := hostRead 0x1D8 s

/-- RD.SNAP.deviceClock[0], offset 0x1E0 (44_host.md R225). -/
def execRdSnapDeviceClock0 (s : State) : Host.Outcome State Fault Refusal := hostRead 0x1E0 s

/-- RD.SNAP.deviceClock[1], offset 0x1E8 (44_host.md R225). -/
def execRdSnapDeviceClock1 (s : State) : Host.Outcome State Fault Refusal := hostRead 0x1E8 s

/-- RD.SNAP.deviceClock[2], offset 0x1F0 (44_host.md R225). -/
def execRdSnapDeviceClock2 (s : State) : Host.Outcome State Fault Refusal := hostRead 0x1F0 s

/-- RD.SNAP.deviceClock[3], offset 0x1F8 (44_host.md R225). -/
def execRdSnapDeviceClock3 (s : State) : Host.Outcome State Fault Refusal := hostRead 0x1F8 s

/-- RD.SNAP.deviceClock[4], offset 0x200 (44_host.md R225). -/
def execRdSnapDeviceClock4 (s : State) : Host.Outcome State Fault Refusal := hostRead 0x200 s

/-- RD.SNAP.deviceClock[5], offset 0x208 (44_host.md R225). -/
def execRdSnapDeviceClock5 (s : State) : Host.Outcome State Fault Refusal := hostRead 0x208 s

/-- RD.SNAP.deviceClock[6], offset 0x210 (44_host.md R225). -/
def execRdSnapDeviceClock6 (s : State) : Host.Outcome State Fault Refusal := hostRead 0x210 s

/-- RD.SNAP.CH_VALID, offset 0x218 (44_host.md R225). -/
def execRdSnapChValid (s : State) : Host.Outcome State Fault Refusal := hostRead 0x218 s

/-- RD.RESERVED: an offset the register map names as reserved reads as 0 (30_encoding.md R109). -/
def execRdReserved (offset : BitVec 7) (s : State) : Host.Outcome State Fault Refusal := hostRead (offsetOf offset) s

end Sys2Proof.Machine
end

