-- ==== Sys2Proof/Machine/HostWrites.lean ====
section
/-! DEFINITION. The meanings of the host writes (44_host.md R221-R224, R227). -/

namespace Sys2Proof.Machine

/-- WR.CTRL (44_host.md R221): SNAP, CLR_CNT, CLR_STICKY and ENABLE in one atomic step. -/
def execWrCtrl (data : Word64) (s : State) : Host.Outcome State Fault Refusal := onFdc (memWrite 0x000 data) s

/-- WR.OTHER (44_host.md R227): a write to any other offset changes no state. -/
def execWrOther (offset : BitVec 7) (data : Word64) (s : State) : Host.Outcome State Fault Refusal :=
  onFdc (memWrite (offsetOf offset) data) s

end Sys2Proof.Machine
end

