-- ==== Sys2Proof/Machine/Dispatch.lean ====
section
/-! DEFINITION. The meaning of every instruction: one arm per constructor, one direct call each. -/

namespace Sys2Proof.Machine

def exec (i : Instr) (s : State) : Host.Outcome State Fault Refusal :=
  match i with
  | .clock now sync yy month day hour minute second ms cks => Sys2Proof.Machine.execClock now sync yy month day hour minute second ms cks s
  | .acc now sync a b c d cks => Sys2Proof.Machine.execAcc now sync a b c d cks s
  | .gyro now sync a b c d cks => Sys2Proof.Machine.execGyro now sync a b c d cks s
  | .angle now sync a b c d cks => Sys2Proof.Machine.execAngle now sync a b c d cks s
  | .mag now sync a b c d cks => Sys2Proof.Machine.execMag now sync a b c d cks s
  | .port now sync a b c d cks => Sys2Proof.Machine.execPort now sync a b c d cks s
  | .press now sync a b cks => Sys2Proof.Machine.execPress now sync a b cks s
  | .lonlat now sync a b cks => Sys2Proof.Machine.execLonlat now sync a b cks s
  | .gpsv now sync a b c d cks => Sys2Proof.Machine.execGpsv now sync a b c d cks s
  | .unknown now sync typ payload cks => Sys2Proof.Machine.execUnknown now sync typ payload cks s
  | .rdCtrl => Sys2Proof.Machine.execRdCtrl s
  | .rdStatus => Sys2Proof.Machine.execRdStatus s
  | .rdCntNoise => Sys2Proof.Machine.execRdCntNoise s
  | .rdCntOvf => Sys2Proof.Machine.execRdCntOvf s
  | .rdCntFrames => Sys2Proof.Machine.execRdCntFrames s
  | .rdCntCksum => Sys2Proof.Machine.execRdCntCksum s
  | .rdCntUnknown => Sys2Proof.Machine.execRdCntUnknown s
  | .rdCntApplied => Sys2Proof.Machine.execRdCntApplied s
  | .rdCntSuppressed => Sys2Proof.Machine.execRdCntSuppressed s
  | .rdSnapAcceleration0 => Sys2Proof.Machine.execRdSnapAcceleration0 s
  | .rdSnapAcceleration1 => Sys2Proof.Machine.execRdSnapAcceleration1 s
  | .rdSnapAcceleration2 => Sys2Proof.Machine.execRdSnapAcceleration2 s
  | .rdSnapAcceleration3 => Sys2Proof.Machine.execRdSnapAcceleration3 s
  | .rdSnapAngularVelocity0 => Sys2Proof.Machine.execRdSnapAngularVelocity0 s
  | .rdSnapAngularVelocity1 => Sys2Proof.Machine.execRdSnapAngularVelocity1 s
  | .rdSnapAngularVelocity2 => Sys2Proof.Machine.execRdSnapAngularVelocity2 s
  | .rdSnapAngularVelocity3 => Sys2Proof.Machine.execRdSnapAngularVelocity3 s
  | .rdSnapAngle0 => Sys2Proof.Machine.execRdSnapAngle0 s
  | .rdSnapAngle1 => Sys2Proof.Machine.execRdSnapAngle1 s
  | .rdSnapAngle2 => Sys2Proof.Machine.execRdSnapAngle2 s
  | .rdSnapAngle3 => Sys2Proof.Machine.execRdSnapAngle3 s
  | .rdSnapMagneticField0 => Sys2Proof.Machine.execRdSnapMagneticField0 s
  | .rdSnapMagneticField1 => Sys2Proof.Machine.execRdSnapMagneticField1 s
  | .rdSnapMagneticField2 => Sys2Proof.Machine.execRdSnapMagneticField2 s
  | .rdSnapMagneticField3 => Sys2Proof.Machine.execRdSnapMagneticField3 s
  | .rdSnapDigitalPort0 => Sys2Proof.Machine.execRdSnapDigitalPort0 s
  | .rdSnapDigitalPort1 => Sys2Proof.Machine.execRdSnapDigitalPort1 s
  | .rdSnapDigitalPort2 => Sys2Proof.Machine.execRdSnapDigitalPort2 s
  | .rdSnapDigitalPort3 => Sys2Proof.Machine.execRdSnapDigitalPort3 s
  | .rdSnapTemperature => Sys2Proof.Machine.execRdSnapTemperature s
  | .rdSnapPressure => Sys2Proof.Machine.execRdSnapPressure s
  | .rdSnapAltitude => Sys2Proof.Machine.execRdSnapAltitude s
  | .rdSnapGroundVelocity => Sys2Proof.Machine.execRdSnapGroundVelocity s
  | .rdSnapGpsYaw => Sys2Proof.Machine.execRdSnapGpsYaw s
  | .rdSnapGpsHeight => Sys2Proof.Machine.execRdSnapGpsHeight s
  | .rdSnapLongitude => Sys2Proof.Machine.execRdSnapLongitude s
  | .rdSnapLatitude => Sys2Proof.Machine.execRdSnapLatitude s
  | .rdSnapDeviceClock0 => Sys2Proof.Machine.execRdSnapDeviceClock0 s
  | .rdSnapDeviceClock1 => Sys2Proof.Machine.execRdSnapDeviceClock1 s
  | .rdSnapDeviceClock2 => Sys2Proof.Machine.execRdSnapDeviceClock2 s
  | .rdSnapDeviceClock3 => Sys2Proof.Machine.execRdSnapDeviceClock3 s
  | .rdSnapDeviceClock4 => Sys2Proof.Machine.execRdSnapDeviceClock4 s
  | .rdSnapDeviceClock5 => Sys2Proof.Machine.execRdSnapDeviceClock5 s
  | .rdSnapDeviceClock6 => Sys2Proof.Machine.execRdSnapDeviceClock6 s
  | .rdSnapChValid => Sys2Proof.Machine.execRdSnapChValid s
  | .rdReserved offset => Sys2Proof.Machine.execRdReserved offset s
  | .wrCtrl data => Sys2Proof.Machine.execWrCtrl data s
  | .wrOther offset data => Sys2Proof.Machine.execWrOther offset data s
  | .push b => Sys2Proof.Machine.execPush b s
  | .extract => Sys2Proof.Machine.execExtract s
  | .step now => Sys2Proof.Machine.execStep now s
  | .reset => Sys2Proof.Machine.execReset s

end Sys2Proof.Machine
end

