-- ==== Sys2Proof/Machine/Step.lean ====
section
/-! DEFINITION. One step of the machine: fetch, decode, execute. -/

namespace Sys2Proof.Machine

/-- One step of the total order (20_memory.md R70, R71): the next step is fetched, decoded and run; one the decoder
rejects is refused, naming why. -/
def step (s : State) : Host.Outcome State Fault Refusal :=
  match decode (fetch s).1 with
  | .ok i => exec i (fetch s).2
  | .error why => .refused (.rejected why)

/-- `s` with the encoded step of a table word staged as the next one (log 10). -/
def State.withFetchWord (s : State) (nbits w : Nat) : State := stage (tableStepWord nbits w) s

end Sys2Proof.Machine
end

