-- ==== Sys2Proof/Machine/Runs.lean ====
section
/-! DEFINITION. Infinite runs of the frame decoder core: the step relation, weak fairness of the PARSER, and the count
of bytes that have left the buffer (60_exceptions.md R262, R263; 40_extract.md R132; 10_state.md R23). -/

namespace Sys2Proof.Machine

/-- The step relation: the step `i` takes the FDC from `s` to `t` (60_exceptions.md R262). -/
def Fdc.Steps (i : Instr) (s t : Fdc) : Prop := ∃ S T : State, S.toFdc = s ∧ T.toFdc = t ∧ exec i S = .next T

/-- An infinite run: a total order of steps, and the states between them (20_memory.md R71). -/
def IsRun (order : Nat → Instr) (f : Nat → Fdc) : Prop := ∀ n, Fdc.Steps (order n) (f n) (f (n + 1))

/-- The step `i` takes a FRAME step in `s`: STEP with a batch in progress, or the row of the frame that heads the batch
(43_gate_apply.md R195; log 9). -/
def takesFrame (i : Instr) (s : Fdc) : Bool :=
  match encode i with
  | .frameStep _ => frameEnabled s
  | .frame _ bytes => s.batch.head?.map Frame.bytes == some bytes
  | _ => false

/-- The step `i` takes an EXTRACT step in `s` (40_extract.md R123, R127). -/
def takesExtract (i : Instr) (s : Fdc) : Bool := i == .extract && extractEnabled s

/-- Weak fairness of the PARSER along a run (60_exceptions.md R263): (a) a FRAME that stays enabled is eventually
taken, and (b) so is an EXTRACT. PRODUCER, HOST and the platform are given none. -/
structure WeaklyFair (order : Nat → Instr) (f : Nat → Fdc) : Prop where
  frame : ∀ n, (∀ m, n ≤ m → frameEnabled (f m) = true) → ∃ m, n ≤ m ∧ takesFrame (order m) (f m) = true
  extract : ∀ n, (∀ m, n ≤ m → extractEnabled (f m) = true) → ∃ m, n ≤ m ∧ takesExtract (order m) (f m) = true

/-- How many bytes leave the head of the buffer in a step: one in a PUSH on a full buffer, those an EXTRACT consumes,
all in a RESET, and none in any other (40_extract.md R121, R122, R127). -/
def headLoss (i : Instr) (s : Fdc) : Nat :=
  match i with
  | .push _ => if s.enable && Config.bufCap == some s.buf.length then 1 else 0
  | .extract => s.buf.length - (extractFrames Config.syncMask s).buf.length
  | .reset => s.buf.length
  | _ => 0

/-- The bytes a step puts at the tail of the buffer: what a PUSH keeps (40_extract.md R121, R122). -/
def tailGain (i : Instr) (s : Fdc) : List Byte :=
  match i with
  | .push b => if s.enable then [b] else []
  | _ => []

/-- The ghost `pos` of 10_state.md R23 as a function of a run and not a field of State: the bytes that have left the head
in the first `n` steps. The byte at index `i` of the buffer then is byte `streamPos order f n + i` of the stream. -/
def streamPos (order : Nat → Instr) (f : Nat → Fdc) : Nat → Nat
  | 0 => 0
  | n + 1 => streamPos order f n + headLoss (order n) (f n)

end Sys2Proof.Machine
end

