-- ==== Sys2Proof/Machine/Stimulus.lean ====
section
/-! DEFINITION. The stimulus notation and its pseudo-operations as lists of encoded steps (30_encoding.md R101, R102). -/

namespace Sys2Proof.Machine

/-- `cks(x)`: the sum of the bytes mod 256 (30_encoding.md R102). -/
def cksOf (bytes : List Byte) : Byte := BitVec.ofNat 8 (bytes.map BitVec.toNat).sum

/-- The two bytes `le16(v)` of `v mod 65536` (30_encoding.md R102). -/
def le16Bytes (v : Int) : List Byte := [byteAt (BitVec.ofInt 16 v) 0, byteAt (BitVec.ofInt 16 v) 1]

/-- The four bytes `le32(v)` of `v mod 2^32`, lowest first (30_encoding.md R102). -/
def le32Bytes (v : Int) : List Byte :=
  [byteAt (BitVec.ofInt 32 v) 0, byteAt (BitVec.ofInt 32 v) 1, byteAt (BitVec.ofInt 32 v) 2,
    byteAt (BitVec.ofInt 32 v) 3]

/-- `PUSH b0, b1, ...`: one PUSH step per byte, in order (30_encoding.md R101). -/
def pushes (bytes : List Byte) : List StepWord := bytes.map .push

/-- The bytes of `FRAME.RAW t, p0, ..., p7` (30_encoding.md R102). -/
def rawBytes (t : Byte) (p : List Byte) : List Byte :=
  Config.syncByte :: t :: p ++ [cksOf (Config.syncByte :: t :: p)]

/-- The bytes of `FRAME.BADSUM t, p0, ..., p7` (30_encoding.md R102). -/
def badSumBytes (t : Byte) (p : List Byte) : List Byte :=
  Config.syncByte :: t :: p ++ [cksOf (Config.syncByte :: t :: p) + 1]

/-- `FRAME.RAW`. -/
def asmFrameRaw (t : Byte) (p : List Byte) : List StepWord := pushes (rawBytes t p)

/-- `FRAME.BADSUM`. -/
def asmFrameBadSum (t : Byte) (p : List Byte) : List StepWord := pushes (badSumBytes t p)

/-- `FRAME.CLOCK`. -/
def asmClock (yy mo dd hh mi ss : Byte) (ms : Int) : List StepWord :=
  asmFrameRaw 0x50 ([yy, mo, dd, hh, mi, ss] ++ le16Bytes ms)

/-- Four 16-bit lanes under a type byte. -/
def asmHalves (t : Byte) (v0 v1 v2 v3 : Int) : List StepWord :=
  asmFrameRaw t (le16Bytes v0 ++ le16Bytes v1 ++ le16Bytes v2 ++ le16Bytes v3)

/-- `FRAME.ACC`. -/
def asmAcc (v0 v1 v2 v3 : Int) : List StepWord := asmHalves 0x51 v0 v1 v2 v3

/-- `FRAME.GYRO`. -/
def asmGyro (v0 v1 v2 v3 : Int) : List StepWord := asmHalves 0x52 v0 v1 v2 v3

/-- `FRAME.ANGLE`. -/
def asmAngle (v0 v1 v2 v3 : Int) : List StepWord := asmHalves 0x53 v0 v1 v2 v3

/-- `FRAME.MAG`. -/
def asmMag (v0 v1 v2 v3 : Int) : List StepWord := asmHalves 0x54 v0 v1 v2 v3

/-- `FRAME.PORT`. -/
def asmPort (v0 v1 v2 v3 : Int) : List StepWord := asmHalves 0x55 v0 v1 v2 v3

/-- `FRAME.PRESS`. -/
def asmPress (p a : Int) : List StepWord := asmFrameRaw 0x56 (le32Bytes p ++ le32Bytes a)

/-- `FRAME.LONLAT`. -/
def asmLonlat (lo la : Int) : List StepWord := asmFrameRaw 0x57 (le32Bytes lo ++ le32Bytes la)

/-- `FRAME.GPSV`. -/
def asmGpsv (h y s : Int) : List StepWord :=
  asmFrameRaw 0x58 (le16Bytes h ++ le16Bytes y ++ le16Bytes s ++ [0, 0])

/-- `STEP @t`. -/
def asmStep (t : Nat) : List StepWord := [.frameStep t]

/-- `ITER @t` for a batch of `n` frames: EXTRACT, then `STEP @t` until the batch is empty (30_encoding.md R102). -/
def asmIter (t n : Nat) : List StepWord := .extract :: List.replicate n (.frameStep t)

/-- `WR off, v`. -/
def asmWr (off : Nat) (v : Word64) : List StepWord := [.hostWrite 8 off v]

/-- `RD off`. -/
def asmRd (off : Nat) : List StepWord := [.hostRead 8 off]

/-- `START`. -/
def asmStart : List StepWord := asmWr 0x000 0x1

/-- `STOP`. -/
def asmStop : List StepWord := asmWr 0x000 0x0

/-- `SNAPSHOT`, which keeps ENABLE = 1. -/
def asmSnapshot : List StepWord := asmWr 0x000 0x3

end Sys2Proof.Machine
end

