-- ==== Sys2Proof/Safety.lean ====
section
/-! DEFINITION. What counts as a safe run, in the terms claims use: runs of instructions, the values binary64 patterns
stand for, and the invariants of the frame decoder core (10_state.md R22, R25, R26, R29, R31, R36, R37). -/

namespace Sys2Proof.Machine

/-! ## Runs -/

/-- The state after an instruction; the same state where it gives no next one. -/
def after (i : Instr) (s : State) : State :=
  match exec i s with
  | .next t => t
  | .fault _ => s
  | .refused _ => s

/-- The state after a list of instructions. -/
def afterAll : List Instr → State → State
  | [], s => s
  | i :: is, s => afterAll is (after i s)

/-- The frames the EXTRACT steps of a list of instructions slice, in order: what a step puts into an empty batch. -/
def slicedFrames : List Instr → State → List Frame
  | [], _ => []
  | i :: is, s => (if s.batch = [] then (after i s).batch else []) ++ slicedFrames is (after i s)

/-- The bytes the PUSH steps of a list of instructions present, in order. -/
def pushedBytes : List Instr → List Byte
  | [] => []
  | .push b :: is => b :: pushedBytes is
  | _ :: is => pushedBytes is

/-- A FRAME step: STEP, or the step on a frame given by its fields (43_gate_apply.md R195). -/
def isFrameStep : Instr → Bool
  | .clock .. | .acc .. | .gyro .. | .angle .. | .mag .. | .port .. | .press .. | .lonlat .. | .gpsv ..
  | .unknown .. | .step _ => true
  | _ => false

/-- A host read (44_host.md R225). -/
def isHostRead (i : Instr) : Bool :=
  match encode i with
  | .hostRead _ _ => true
  | _ => false

/-- The sync pattern stands at index `j` of a byte sequence: 0x55 and then a byte whose bits 6 and 4 are set
(30_encoding.md R99; 40_extract.md R124). Stated on the bytes alone, apart from the scan the machine runs. -/
def syncPairAt (buf : List Byte) (j : Nat) : Prop :=
  buf[j]? = some 0x55 ∧ ∃ c, buf[j + 1]? = some c ∧ c &&& 0x50 = 0x50

/-- The gate lets a frame pass at time `now`: its channel is unseen, or the interval has passed since the last accepted
frame (43_gate_apply.md R192). -/
def gateOpen (e : GateEntry) (now : Nat) : Prop :=
  e.seen = false ∨ (Config.rateIntervalTicks : Int) ≤ (now : Int) - (e.last : Int)

/-! ## The values of binary64 patterns (IEEE 754; 00_scope.md R12) -/

/-- The biased exponent of a pattern. -/
def b64Exponent (b : Binary64) : Nat := (b.extractLsb' 52 11).toNat

/-- The fraction bits of a pattern. -/
def b64Fraction (b : Binary64) : Nat := (b.extractLsb' 0 52).toNat

/-- Whether a pattern is a number: neither infinite nor NaN. -/
def b64Finite (b : Binary64) : Prop := b64Exponent b ≠ 2047

/-- The rational number a finite pattern stands for. -/
def b64Value (b : Binary64) : ℚ :=
  (if b.getLsbD 63 then -1 else 1) *
    (if b64Exponent b = 0 then (b64Fraction b : ℚ) * 2 ^ (-1074 : ℤ)
     else ((2 ^ 52 + b64Fraction b : Nat) : ℚ) * 2 ^ ((b64Exponent b : ℤ) - 1075))

/-- A value the decoder can store: +0.0 or a normal number, neither -0.0 nor subnormal nor infinite nor NaN
(93_implementation_defined.md I26, I27). -/
def b64Plain (b : Binary64) : Prop := b = 0 ∨ (0 < b64Exponent b ∧ b64Exponent b < 2047)

/-! ## Invariants -/

/-- The signed 16-bit range (10_state.md R26). -/
def inS16 (v : Int) : Prop := -32768 ≤ v ∧ v ≤ 32767

/-- The signed 32-bit range (10_state.md R26). -/
def inS32 (v : Int) : Prop := -2147483648 ≤ v ∧ v ≤ 2147483647

/-- The range of a clock byte (10_state.md R26). -/
def inU8 (v : Int) : Prop := 0 ≤ v ∧ v ≤ 255

/-- The integer fields of SensorState lie in their value sets: the year is 0 until it is written and 2000..2255 after
(10_state.md R26). -/
structure SensorState.IntsInRange (S : SensorState) : Prop where
  mag0 : inS16 S.magneticField.x0
  mag1 : inS16 S.magneticField.x1
  mag2 : inS16 S.magneticField.x2
  port0 : inS16 S.digitalPort.x0
  port1 : inS16 S.digitalPort.x1
  port2 : inS16 S.digitalPort.x2
  port3 : inS16 S.digitalPort.x3
  pressure : inS32 S.pressure
  longitude : inS32 S.longitude
  latitude : inS32 S.latitude
  year : S.deviceClock.year = 0 ∨ (2000 ≤ S.deviceClock.year ∧ S.deviceClock.year ≤ 2255)
  month : inU8 S.deviceClock.month
  day : inU8 S.deviceClock.day
  hour : inU8 S.deviceClock.hour
  minute : inU8 S.deviceClock.minute
  second : inU8 S.deviceClock.second
  ms : inS16 S.deviceClock.ms

/-- The fourth elements no frame writes hold their reset value (10_state.md R29). -/
structure SensorState.FourthAtReset (S : SensorState) : Prop where
  acceleration : S.acceleration.x3 = 0
  angularVelocity : S.angularVelocity.x3 = 0
  angle : S.angle.x3 = 0
  magneticField : S.magneticField.x3 = 0

/-- Every binary64 field is +0.0 or a normal number (93_implementation_defined.md I26, I27). -/
structure SensorState.FloatsPlain (S : SensorState) : Prop where
  acceleration : ∀ i, b64Plain (S.acceleration.get i)
  angularVelocity : ∀ i, b64Plain (S.angularVelocity.get i)
  angle : ∀ i, b64Plain (S.angle.get i)
  temperature : b64Plain S.temperature
  altitude : b64Plain S.altitude
  groundVelocity : b64Plain S.groundVelocity
  gpsYaw : b64Plain S.gpsYaw
  gpsHeight : b64Plain S.gpsHeight

/-- The shape of the control state: the buffer within its capacity and the batch within what it can yield (10_state.md
R22, R25), no outcome code above 4 (60_exceptions.md R251), a gate entry unused until its channel is seen (R31), and a
gated channel seen exactly when its valid bit is set (43_gate_apply.md R195). -/
structure Fdc.Sound (s : Fdc) : Prop where
  bufBound : ∀ c, Config.bufCap = some c → s.buf.length ≤ c
  batchBound : ∀ c, Config.bufCap = some c → s.batch.length ≤ c / 11
  outcome : s.lastOutcome.toNat ≤ 4
  unseen : ∀ g, (s.gate.get g).seen = false → (s.gate.get g).last = 0
  seenValid : ∀ g : Fin 4, (s.gate.get g).seen = s.chValid.getLsbD (g.val + 1)

/-- The stored values: SensorState and its snapshot in their value sets, with the fourth elements at reset. -/
structure Fdc.ValuesOk (s : Fdc) : Prop where
  sensorInts : s.sensor.IntsInRange
  sensorFourth : s.sensor.FourthAtReset
  snapInts : s.snap.sensor.IntsInRange
  snapFourth : s.snap.sensor.FourthAtReset

/-- SensorState and its snapshot hold plain binary64 values only. -/
structure Fdc.FloatsOk (s : Fdc) : Prop where
  sensor : s.sensor.FloatsPlain
  snap : s.snap.sensor.FloatsPlain

/-- Every frame sliced is accounted for, modulo 2^64: CNT_FRAMES is the sum of the four outcome counters and the frames
still in the batch (10_state.md R37). -/
def Fdc.Balanced (s : Fdc) : Prop :=
  s.cnt.frames = s.cnt.cksum + s.cnt.unknown + s.cnt.applied + s.cnt.suppressed + BitVec.ofNat 64 s.batch.length

/-- Quiescent: stopped, with an empty batch (60_exceptions.md R266). -/
def Fdc.Quiescent (s : Fdc) : Prop := s.enable = false ∧ s.batch = []

end Sys2Proof.Machine
end

