-- ==== Sys2Proof/Certificates/Slice0/Obligations.lean ====
section
/-! DEFINITION. The statements for the provers, from the numbered rules of spec/. A statement whose docstring names a
log entry rests on the model's choice recorded there; an equation between whole states says so of the model's own fields
(the read port, the fixed steps, the count of draws: log 1, log 3), and the rest of it is the rule cited. -/

open Sys2Proof Sys2Proof.Machine

/-! ## Encoding and decoding -/

/-- For every well-formed instruction, with every operand at every value its encoding admits, decoding its encoding
gives it back (30_encoding.md R92, R95, R103). -/
def Obligations.DecodeUndoesEncode : Prop := ∀ i : Instr, i.wf = true → decode (encode i) = .ok i

/-- Every step the decoder accepts is the encoding of the instruction it answers, which is well formed: no bit of a step
is dropped (30_encoding.md R92, R95, R103). -/
def Obligations.EncodeUndoesDecode : Prop :=
  ∀ (w : StepWord) (i : Instr), decode w = .ok i → i.wf = true ∧ encode i = w

/-- A host access of another width than 8 bytes, at an offset that is no multiple of 8, or outside 0x000..0x3FF is
refused, and a defined one is not (20_memory.md R65). Which name the refusal gives, and the order width, alignment,
offset where an access breaks several of these at once, are the model's choice (log 14). -/
def Obligations.HostAccessRefusedUnlessDefined : Prop :=
  ∀ (s : State) (w : StepWord) (rest : List StepWord) (width off : Nat), s.pending = w :: rest →
    (w = .hostRead width off ∨ ∃ v, w = .hostWrite width off v) →
    ((width ≠ 8 → step s = .refused (.rejected .hostWidth)) ∧
      (width = 8 → off % 8 ≠ 0 → step s = .refused (.rejected .hostAlignment)) ∧
      (width = 8 → off % 8 = 0 → 0x400 ≤ off → step s = .refused (.rejected .hostOffset)) ∧
      (width = 8 → off % 8 = 0 → off < 0x400 → ∃ t, step s = .next t))

/-- Words written out from the spec's encodings decode to the instructions they stand for (95_test_vectors.md D1, D4,
D12, D18; 30_encoding.md R104). -/
def Obligations.SpecWordsDecode : Prop :=
  decode (.frame 7 [0x55, 0x50, 0x18, 0x0B, 0x0B, 0x14, 0x25, 0x05, 0xFA, 0x00, 0x0B]) =
      .ok (.clock 7 0x55 24 11 11 20 37 5 250 0x0B) ∧
    decode (.frame 7 [0x55, 0x51, 0x00, 0x80, 0xFF, 0x7F, 0x01, 0x00, 0xFF, 0xFF, 0xA3]) =
      .ok (.acc 7 0x55 0x8000 0x7FFF 1 0xFFFF 0xA3) ∧
    decode (.frame 7 [0x55, 0x56, 0xFF, 0xFF, 0xFF, 0xFF, 0x00, 0x00, 0x00, 0x80, 0x27]) =
      .ok (.press 7 0x55 0xFFFFFFFF 0x80000000 0x27) ∧
    decode (.frame 7 [0x55, 0x59, 0, 0, 0, 0, 0, 0, 0, 0, 0xAE]) = .ok (.unknown 7 0x55 0x59 0 0xAE) ∧
    decode (.hostRead 8 0x218) = .ok .rdSnapChValid ∧
    decode (.hostRead 8 0x048) = .ok (.rdReserved 9) ∧
    decode (.hostWrite 8 0x000 3) = .ok (.wrCtrl 3)

/-- The row a frame decodes to is the row whose match it meets under the mask 0xFF00 of its 88-bit word, and no other
bit of the frame takes part (30_encoding.md R92, R93). -/
def Obligations.TypeByteSelectsRow : Prop :=
  ∀ (f : Frame) (t : Channel),
    (f.word &&& 0xFF00 = BitVec.setWidth 88 t.typeByte <<< 8) ↔ channelOf f.typ = some t

/-- The 16-bit and 32-bit lanes of a frame are little-endian two's complement, at the frame indices of R96 (00_scope.md
R11; 30_encoding.md R94, R96). -/
def Obligations.LanesAreLittleEndianSigned : Prop :=
  ∀ (f : Frame),
    let u16 := fun (a b : Byte) => (a.toNat : Int) + 256 * b.toNat
    let u32 := fun (a b c d : Byte) => (a.toNat : Int) + 2 ^ 8 * b.toNat + 2 ^ 16 * c.toNat + 2 ^ 24 * d.toNat
    let s16 := fun (v : Int) => if v < 2 ^ 15 then v else v - 2 ^ 16
    let s32 := fun (v : Int) => if v < 2 ^ 31 then v else v - 2 ^ 32
    f.half0.toInt = s16 (u16 f.p2 f.p3) ∧ f.half1.toInt = s16 (u16 f.p4 f.p5) ∧
    f.half2.toInt = s16 (u16 f.p6 f.p7) ∧ f.half3.toInt = s16 (u16 f.p8 f.p9) ∧
    f.word0.toInt = s32 (u32 f.p2 f.p3 f.p4 f.p5) ∧ f.word1.toInt = s32 (u32 f.p6 f.p7 f.p8 f.p9)

/-! ## The step -/

/-- A step runs the instruction the next step word decodes to, in the state from which that word is taken; where no
fixed word is left, the word is the environment's draw (log 1). -/
def Obligations.StepRunsDecodedInstruction : Prop :=
  ∀ s : State,
    (∀ w rest i, s.pending = w :: rest → decode w = .ok i → step s = exec i { s with pending := rest }) ∧
    (s.pending = [] → step s =
      match decode (Config.environment s.drawn) with
      | .ok i => exec i { s with drawn := s.drawn + 1 }
      | .error why => .refused (.rejected why))

/-- The machine stops exactly at a step the spec has no meaning for; every other step completes (44_host.md R229,
60_exceptions.md R254: no step raises an exception). The model's choice: a step that is not enabled, which R254 says
does not happen, completes and leaves the FDC as it is (log 2, log 9), and a frame word of another length than eleven
bytes stops (log 14). -/
def Obligations.StepCompletesExactlyWhenDefined : Prop :=
  ∀ (s : State) (w : StepWord) (rest : List StepWord), s.pending = w :: rest →
    ((∃ t, step s = .next t) ↔ w.wf = true)

/-! ## Bytes in: PUSH -/

/-- PUSH keeps no byte while stopped, drops the oldest byte of a full buffer, counts and flags the drop, and appends at
the tail (40_extract.md R121). The model's own fields stay (log 3). -/
def Obligations.PushAppendsAtTail : Prop :=
  ∀ (b : Byte) (s : State), exec (.push b) s = .next (
    if s.enable = false then s
    else if Config.bufCap = some s.buf.length then
      { s with
        buf := s.buf.drop 1 ++ [b]
        cnt := { s.cnt with ovf := s.cnt.ovf + 1 }
        sticky := { s.sticky with ovf := true } }
    else { s with buf := s.buf ++ [b] })

/-! ## EXTRACT -/

/-- EXTRACT, enabled (40_extract.md R127). With no sync index, or no whole frame from the least sync index `h` on, it
changes nothing. Otherwise the batch is the maximal run of whole frames from `h`, the noise before `h` and the frames
leave the buffer, and both are counted. The model's own fields stay (log 3). -/
def Obligations.ExtractFollowsItsRule : Prop :=
  ∀ s : State, s.enable = true → s.batch = [] →
    ((∀ j, ¬ syncPairAt s.buf j) → exec .extract s = .next s) ∧
    (∀ h, syncPairAt s.buf h → (∀ j, j < h → ¬ syncPairAt s.buf j) →
      (s.buf.length < h + 11 → exec .extract s = .next s) ∧
      (h + 11 ≤ s.buf.length →
        ∃ fs : List Frame,
          exec .extract s = .next { s with
            batch := fs
            buf := s.buf.drop (h + 11 * ((s.buf.length - h) / 11))
            cnt := { s.cnt with
              noise := s.cnt.noise + BitVec.ofNat 64 h
              frames := s.cnt.frames + BitVec.ofNat 64 ((s.buf.length - h) / 11) }
            sticky := { s.sticky with noise := s.sticky.noise || decide (0 < h) } } ∧
          fs.length = (s.buf.length - h) / 11 ∧
          fs.flatMap Frame.bytes = (s.buf.drop h).take (11 * ((s.buf.length - h) / 11))))

/-- If an enabled EXTRACT makes no change, a later EXTRACT with no PUSH and no RESET in between makes none either
(40_extract.md R131). -/
def Obligations.FailedExtractIsIdempotent : Prop :=
  ∀ (s : State) (is : List Instr), s.enable = true → s.batch = [] → exec .extract s = .next s →
    (∀ i ∈ is, i ≠ .reset ∧ ∀ b, i ≠ .push b) →
    (afterAll is s).buf = s.buf ∧ exec .extract (afterAll is s) = .next (afterAll is s)

/-- Apart from PUSH every step that changes the buffer removes bytes from its head, and it is EXTRACT or RESET; PUSH
inserts at the tail only (40_extract.md R122; 10_state.md R23). -/
def Obligations.BytesLeaveOnlyAtHead : Prop :=
  ∀ (i : Instr) (s t : State), exec i s = .next t →
    (∀ b, i = .push b → t.buf = s.buf ∨ t.buf = s.buf ++ [b] ∨ t.buf = s.buf.drop 1 ++ [b]) ∧
    ((∀ b, i ≠ .push b) → t.buf ≠ s.buf → (i = .extract ∨ i = .reset) ∧ ∃ k, t.buf = s.buf.drop k)

/-! ## The FRAME step -/

/-- STEP on a batch headed by `f` (43_gate_apply.md R195): the tests in the order checksum, type, gate; exactly one
counter, the sticky bit of a drop, and for an Applied frame its gate, its write set and its valid bit.
The model's own fields stay (log 3). -/
def Obligations.FrameStepFollowsItsRule : Prop :=
  ∀ (now : Nat) (s : State) (f : Frame) (rest : List Frame), s.batch = f :: rest →
    exec (.step now) s = .next (
      if valid f = false then
        { s with
          batch := rest, lastOutcome := 3, cnt := { s.cnt with cksum := s.cnt.cksum + 1 }
          sticky := { s.sticky with ckerr := true } }
      else
        match decodePayload Config.scaleLut f with
        | .rejected =>
          { s with
            batch := rest, lastOutcome := 4, cnt := { s.cnt with unknown := s.cnt.unknown + 1 }
            sticky := { s.sticky with unktype := true } }
        | .known t w =>
          let applied : State :=
            { s with
              batch := rest, lastOutcome := 1, cnt := { s.cnt with applied := s.cnt.applied + 1 }
              sensor := w.foldl SensorState.write s.sensor, chValid := s.chValid ||| (1 <<< channelIndex t) }
          match gateIndex t with
          | none => applied
          | some g =>
            if (s.gate.get g).seen = false ∨ (Config.rateIntervalTicks : Int) ≤ (now : Int) - (s.gate.get g).last then
              { applied with gate := s.gate.set g ⟨now, true⟩ }
            else
              { s with
                batch := rest, lastOutcome := 2, cnt := { s.cnt with suppressed := s.cnt.suppressed + 1 } })

/-- CLOCK (42_decode.md R162): a valid CLOCK frame at the head of the batch is Applied, whatever the time: the seven fields
of the device clock are written, unsigned bytes and a signed millisecond, none range-checked, and nothing else in S.
The model's own fields stay (log 3). -/
def Obligations.ClockFrameApplied : Prop :=
  ∀ (now : Nat) (sync cks : Byte) (yy month day hour minute second : Byte) (ms : Half) (s : State) (rest : List Frame),
    s.batch = clockFrame sync yy month day hour minute second ms cks :: rest → valid (clockFrame sync yy month day hour minute second ms cks) = true →
    exec (.clock now sync yy month day hour minute second ms cks) s = .next
      { s with
        batch := rest
        sensor := { s.sensor with
          deviceClock := ⟨2000 + (yy.toNat : Int), month.toNat, day.toNat, hour.toNat, minute.toNat, second.toNat, ms.toInt⟩ }
        lastOutcome := 1
        chValid := s.chValid ||| 1
        cnt := { s.cnt with applied := s.cnt.applied + 1 } }

/-- ACC (42_decode.md R163): a valid ACC frame the gate of its channel lets pass is Applied: three scaled lanes and the
shared temperature are written, the fourth element is not, and the gate records the time.
The model's own fields stay (log 3). -/
def Obligations.AccFrameApplied : Prop :=
  ∀ (now : Nat) (sync cks : Byte) (l0 l1 l2 l3 : Half) (s : State) (rest : List Frame),
    s.batch = halvesFrame sync 0x51 l0 l1 l2 l3 cks :: rest → valid (halvesFrame sync 0x51 l0 l1 l2 l3 cks) = true →
    gateOpen s.gate.x0 now →
    exec (.acc now sync l0 l1 l2 l3 cks) s = .next
      { s with
        batch := rest
        sensor := { s.sensor with
          acceleration := ⟨rne64 (l0.toInt * 16) 32768, rne64 (l1.toInt * 16) 32768, rne64 (l2.toInt * 16) 32768,
            s.sensor.acceleration.x3⟩
          temperature := rne64 l3.toInt 100 }
        gate := { s.gate with x0 := ⟨now, true⟩ }
        lastOutcome := 1
        chValid := s.chValid ||| 2
        cnt := { s.cnt with applied := s.cnt.applied + 1 } }

/-- GYRO (42_decode.md R164): a valid GYRO frame the gate of its channel lets pass is Applied: three scaled lanes and the
shared temperature are written, the fourth element is not, and the gate records the time.
The model's own fields stay (log 3). -/
def Obligations.GyroFrameApplied : Prop :=
  ∀ (now : Nat) (sync cks : Byte) (l0 l1 l2 l3 : Half) (s : State) (rest : List Frame),
    s.batch = halvesFrame sync 0x52 l0 l1 l2 l3 cks :: rest → valid (halvesFrame sync 0x52 l0 l1 l2 l3 cks) = true →
    gateOpen s.gate.x1 now →
    exec (.gyro now sync l0 l1 l2 l3 cks) s = .next
      { s with
        batch := rest
        sensor := { s.sensor with
          angularVelocity := ⟨rne64 (l0.toInt * 2000) 32768, rne64 (l1.toInt * 2000) 32768, rne64 (l2.toInt * 2000) 32768,
            s.sensor.angularVelocity.x3⟩
          temperature := rne64 l3.toInt 100 }
        gate := { s.gate with x1 := ⟨now, true⟩ }
        lastOutcome := 1
        chValid := s.chValid ||| 4
        cnt := { s.cnt with applied := s.cnt.applied + 1 } }

/-- ANGLE (42_decode.md R165): a valid ANGLE frame the gate of its channel lets pass is Applied: three scaled lanes and the
shared temperature are written, the fourth element is not, and the gate records the time.
The model's own fields stay (log 3). -/
def Obligations.AngleFrameApplied : Prop :=
  ∀ (now : Nat) (sync cks : Byte) (l0 l1 l2 l3 : Half) (s : State) (rest : List Frame),
    s.batch = halvesFrame sync 0x53 l0 l1 l2 l3 cks :: rest → valid (halvesFrame sync 0x53 l0 l1 l2 l3 cks) = true →
    gateOpen s.gate.x2 now →
    exec (.angle now sync l0 l1 l2 l3 cks) s = .next
      { s with
        batch := rest
        sensor := { s.sensor with
          angle := ⟨rne64 (l0.toInt * 180) 32768, rne64 (l1.toInt * 180) 32768, rne64 (l2.toInt * 180) 32768,
            s.sensor.angle.x3⟩
          temperature := rne64 l3.toInt 100 }
        gate := { s.gate with x2 := ⟨now, true⟩ }
        lastOutcome := 1
        chValid := s.chValid ||| 8
        cnt := { s.cnt with applied := s.cnt.applied + 1 } }

/-- MAG (42_decode.md R166): a valid MAG frame the gate of its channel lets pass is Applied: three raw lanes and the shared,
scaled temperature are written, the fourth element is not, and the gate records the time.
The model's own fields stay (log 3). -/
def Obligations.MagFrameApplied : Prop :=
  ∀ (now : Nat) (sync cks : Byte) (l0 l1 l2 l3 : Half) (s : State) (rest : List Frame),
    s.batch = halvesFrame sync 0x54 l0 l1 l2 l3 cks :: rest → valid (halvesFrame sync 0x54 l0 l1 l2 l3 cks) = true →
    gateOpen s.gate.x3 now →
    exec (.mag now sync l0 l1 l2 l3 cks) s = .next
      { s with
        batch := rest
        sensor := { s.sensor with
          magneticField := ⟨l0.toInt, l1.toInt, l2.toInt, s.sensor.magneticField.x3⟩
          temperature := rne64 l3.toInt 100 }
        gate := { s.gate with x3 := ⟨now, true⟩ }
        lastOutcome := 1
        chValid := s.chValid ||| 16
        cnt := { s.cnt with applied := s.cnt.applied + 1 } }

/-- PORT (42_decode.md R167): a valid PORT frame is Applied, whatever the time: four raw signed lanes.
The model's own fields stay (log 3). -/
def Obligations.PortFrameApplied : Prop :=
  ∀ (now : Nat) (sync cks : Byte) (l0 l1 l2 l3 : Half) (s : State) (rest : List Frame),
    s.batch = halvesFrame sync 0x55 l0 l1 l2 l3 cks :: rest → valid (halvesFrame sync 0x55 l0 l1 l2 l3 cks) = true →
    exec (.port now sync l0 l1 l2 l3 cks) s = .next
      { s with
        batch := rest
        sensor := { s.sensor with
          digitalPort := ⟨l0.toInt, l1.toInt, l2.toInt, l3.toInt⟩ }
        lastOutcome := 1
        chValid := s.chValid ||| 32
        cnt := { s.cnt with applied := s.cnt.applied + 1 } }

/-- PRESS (42_decode.md R168): a valid PRESS frame is Applied, whatever the time: the raw pressure and the scaled altitude.
The model's own fields stay (log 3). -/
def Obligations.PressFrameApplied : Prop :=
  ∀ (now : Nat) (sync cks : Byte) (l0 l1 : Word32) (s : State) (rest : List Frame),
    s.batch = wordsFrame sync 0x56 l0 l1 cks :: rest → valid (wordsFrame sync 0x56 l0 l1 cks) = true →
    exec (.press now sync l0 l1 cks) s = .next
      { s with
        batch := rest
        sensor := { s.sensor with
          pressure := l0.toInt
          altitude := rne64 l1.toInt 100 }
        lastOutcome := 1
        chValid := s.chValid ||| 64
        cnt := { s.cnt with applied := s.cnt.applied + 1 } }

/-- LONLAT (42_decode.md R169): a valid LONLAT frame is Applied, whatever the time: longitude and latitude, raw.
The model's own fields stay (log 3). -/
def Obligations.LonlatFrameApplied : Prop :=
  ∀ (now : Nat) (sync cks : Byte) (l0 l1 : Word32) (s : State) (rest : List Frame),
    s.batch = wordsFrame sync 0x57 l0 l1 cks :: rest → valid (wordsFrame sync 0x57 l0 l1 cks) = true →
    exec (.lonlat now sync l0 l1 cks) s = .next
      { s with
        batch := rest
        sensor := { s.sensor with
          longitude := l0.toInt
          latitude := l1.toInt }
        lastOutcome := 1
        chValid := s.chValid ||| 128
        cnt := { s.cnt with applied := s.cnt.applied + 1 } }

/-- GPSV (42_decode.md R170): a valid GPSV frame is Applied, whatever the time: height, yaw and ground speed, scaled; its
last two payload bytes change nothing. The model's own fields stay (log 3). -/
def Obligations.GpsvFrameApplied : Prop :=
  ∀ (now : Nat) (sync cks : Byte) (l0 l1 l2 l3 : Half) (s : State) (rest : List Frame),
    s.batch = halvesFrame sync 0x58 l0 l1 l2 l3 cks :: rest → valid (halvesFrame sync 0x58 l0 l1 l2 l3 cks) = true →
    exec (.gpsv now sync l0 l1 l2 l3 cks) s = .next
      { s with
        batch := rest
        sensor := { s.sensor with
          gpsHeight := rne64 l0.toInt 10
          gpsYaw := rne64 l1.toInt 10
          groundVelocity := rne64 l2.toInt 1000 }
        lastOutcome := 1
        chValid := s.chValid ||| 256
        cnt := { s.cnt with applied := s.cnt.applied + 1 } }

/-- UNKNOWN (42_decode.md R171): a valid frame whose type byte is outside 0x50..0x58 is dropped as of unknown type and
writes neither S nor G. The model's own fields stay (log 3). -/
def Obligations.UnknownTypeDropped : Prop :=
  ∀ (now : Nat) (sync typ cks : Byte) (payload : Word64) (s : State) (rest : List Frame),
    (typ.toNat < 0x50 ∨ 0x58 < typ.toNat) → s.batch = unknownFrame sync typ payload cks :: rest →
    valid (unknownFrame sync typ payload cks) = true →
    exec (.unknown now sync typ payload cks) s = .next
      { s with
        batch := rest
        lastOutcome := 4
        cnt := { s.cnt with unknown := s.cnt.unknown + 1 }
        sticky := { s.sticky with unktype := true } }

/-- A frame of any row with a failing checksum is dropped: not decoded, not offered to the gate, and the rest of the
batch stays (41_checksum.md R151, R152). The model's own fields stay (log 3). -/
def Obligations.ChecksumFailureDropped : Prop :=
  ∀ (now : Nat) (f : Frame) (s : State) (rest : List Frame), s.batch = f :: rest → valid f = false →
    exec (decodeFrame now f) s = .next
      { s with
        batch := rest
        lastOutcome := 3
        cnt := { s.cnt with cksum := s.cnt.cksum + 1 }
        sticky := { s.sticky with ckerr := true } }

/-- A valid frame of a gated channel that comes too early after the last accepted one is Suppressed: consumed and
counted, its values discarded, the gate unchanged (43_gate_apply.md R192, R195). The model's own fields stay (log 3). -/
def Obligations.EarlyGatedFrameSuppressed : Prop :=
  ∀ (now : Nat) (f : Frame) (t : Channel) (g : Fin 4) (s : State) (rest : List Frame), s.batch = f :: rest →
    valid f = true → channelOf f.typ = some t → gateIndex t = some g → (s.gate.get g).seen = true →
    (now : Int) - (s.gate.get g).last < Config.rateIntervalTicks →
    exec (decodeFrame now f) s = .next
      { s with
        batch := rest
        lastOutcome := 2
        cnt := { s.cnt with suppressed := s.cnt.suppressed + 1 } }

/-- A step that is not enabled does not happen: STEP with an empty batch, a frame row whose frame does not head the
batch, EXTRACT while stopped or with a batch in progress (60_exceptions.md R254; the model's reading, log 2 and
log 9). -/
def Obligations.DisabledStepsDoNotHappen : Prop :=
  (∀ (now : Nat) (s : State), s.batch = [] → exec (.step now) s = .next s) ∧
  (∀ (now : Nat) (f : Frame) (s : State), s.batch.head? ≠ some f → exec (decodeFrame now f) s = .next s) ∧
  (∀ s : State, s.enable = false ∨ s.batch ≠ [] → exec .extract s = .next s)

/-- STEP and the row of the frame that heads the batch are one step: the decode of the frame as a row with fields and
its decode as a write set agree (43_gate_apply.md R195; 42_decode.md R160; log 9). -/
def Obligations.StepAgreesWithFrameRow : Prop :=
  ∀ (now : Nat) (f : Frame) (s : State) (rest : List Frame), s.batch = f :: rest →
    exec (.step now) s = exec (decodeFrame now f) s

/-- An Applied frame writes every field of its write set and nothing else in S, and the fields that different types
write are disjoint but for the temperature, which exactly the types 0x51 to 0x54 write (43_gate_apply.md R196). -/
def Obligations.AppliedFrameWritesItsWriteSet : Prop :=
  (∀ (now : Nat) (f : Frame) (t : Channel) (w : List FieldWrite) (s : State) (rest : List Frame),
    s.batch = f :: rest → valid f = true → decodePayload Config.scaleLut f = .known t w →
    (∀ g, gateIndex t = some g → gateOpen (s.gate.get g) now) →
    ∃ u : State, exec (.step now) s = .next u ∧ u.lastOutcome = 1 ∧
      (∀ p ∈ w, u.sensor.get p.field = p.value) ∧
      (∀ field, field ∉ w.map FieldWrite.field → u.sensor.get field = s.sensor.get field)) ∧
  (∀ (f f' : Frame) (t t' : Channel) (w w' : List FieldWrite), decodePayload Config.scaleLut f = .known t w →
    decodePayload Config.scaleLut f' = .known t' w' → t ≠ t' →
    ∀ field, field ∈ w.map FieldWrite.field → field ∈ w'.map FieldWrite.field → field = .temperature) ∧
  (∀ (f : Frame) (t : Channel) (w : List FieldWrite), decodePayload Config.scaleLut f = .known t w →
    (.temperature ∈ w.map FieldWrite.field ↔ 0x51 ≤ f.typ.toNat ∧ f.typ.toNat ≤ 0x54))

/-- S and G change only in a FRAME step whose outcome is APPLIED, and in RESET (43_gate_apply.md R197; 10_state.md
R30). -/
def Obligations.OnlyAppliedFramesChangeSensorAndGate : Prop :=
  ∀ (i : Instr) (s t : State), exec i s = .next t → t.sensor ≠ s.sensor ∨ t.gate ≠ s.gate →
    i = .reset ∨ (isFrameStep i = true ∧ s.batch ≠ [] ∧ t.lastOutcome = 1 ∧ t.cnt.applied = s.cnt.applied + 1)

/-- The fourth elements of acceleration, angularVelocity, angle and magneticField are never written: no step but RESET
can change them, and RESET gives them their reset value (10_state.md R29). -/
def Obligations.FourthElementsNeverWritten : Prop :=
  ∀ (i : Instr) (s t : State), exec i s = .next t →
    (t.sensor.acceleration.x3 = s.sensor.acceleration.x3 ∧ t.sensor.angularVelocity.x3 = s.sensor.angularVelocity.x3 ∧
      t.sensor.angle.x3 = s.sensor.angle.x3 ∧ t.sensor.magneticField.x3 = s.sensor.magneticField.x3) ∨
    (i = .reset ∧ t.sensor.FourthAtReset)

/-- The shared temperature: an Applied frame of type 0x51 to 0x54 leaves in it its own fourth lane over 100, and every
other FRAME step leaves it as it was (10_state.md R27; 42_decode.md R161). -/
def Obligations.TemperatureComesFromMotionFrames : Prop :=
  ∀ (now : Nat) (s t : State) (f : Frame) (rest : List Frame), s.batch = f :: rest → exec (.step now) s = .next t →
    t.sensor.temperature =
      if t.lastOutcome = 1 ∧ 0x51 ≤ f.typ.toNat ∧ f.typ.toNat ≤ 0x54 then rne64 f.half3.toInt 100
      else s.sensor.temperature

/-! ## The rate gate -/

/-- Within one batch processed at one time, after an Applied frame of a gated channel every later valid frame of that
channel is Suppressed (43_gate_apply.md R193). -/
def Obligations.OneGatedFramePerBatchAtOneTime : Prop :=
  ∀ (now : Nat) (s : State) (before : List Frame) (f : Frame) (between : List Frame) (f' : Frame) (rest : List Frame)
    (t : Channel) (g : Fin 4),
    s.batch = before ++ f :: (between ++ f' :: rest) → channelOf f.typ = some t → channelOf f'.typ = some t →
    gateIndex t = some g → valid f' = true →
    (afterAll (List.replicate (before.length + 1) (.step now)) s).lastOutcome = 1 →
    (afterAll (List.replicate (before.length + 1 + (between.length + 1)) (.step now)) s).lastOutcome = 2

/-- Two valid acceleration frames, the first accepted: closer than the interval only the first updates SensorState, and
otherwise the second's values are the final ones (43_gate_apply.md R198, for every TICK_HZ). -/
def Obligations.SecondAccelerationFrameNeedsTheInterval : Prop :=
  ∀ (now1 now2 : Nat) (s : State) (f1 f2 : Frame) (rest : List Frame), s.batch = f1 :: f2 :: rest →
    f1.typ = 0x51 → f2.typ = 0x51 → valid f1 = true → valid f2 = true → gateOpen s.gate.x0 now1 →
    let final := fun (f : Frame) (t : State) =>
      t.sensor.acceleration.x0 = rne64 (f.half0.toInt * 16) 32768 ∧
      t.sensor.acceleration.x1 = rne64 (f.half1.toInt * 16) 32768 ∧
      t.sensor.acceleration.x2 = rne64 (f.half2.toInt * 16) 32768 ∧
      t.sensor.temperature = rne64 f.half3.toInt 100
    ((now2 : Int) - now1 < Config.rateIntervalTicks → final f1 (afterAll [.step now1, .step now2] s)) ∧
    ((Config.rateIntervalTicks : Int) ≤ (now2 : Int) - now1 → final f2 (afterAll [.step now1, .step now2] s))

/-! ## The checksum -/

/-- `valid(f)`: the sum of the first ten bytes as integers, mod 256, equals the eleventh byte (41_checksum.md R150). -/
def Obligations.ChecksumSumsTenBytes : Prop :=
  ∀ f : Frame, valid f = true ↔
    (f.sync.toNat + f.typ.toNat + f.p2.toNat + f.p3.toNat + f.p4.toNat + f.p5.toNat + f.p6.toNat + f.p7.toNat +
      f.p8.toNat + f.p9.toNat) % 256 = f.cks.toNat

/-- Changing exactly one byte of a valid frame makes it invalid; two changes that cancel leave it valid; reordering the
first ten bytes never changes the test (41_checksum.md R153). -/
def Obligations.ChecksumDetectsOneByteChanges : Prop :=
  (∀ f g : Frame, valid f = true →
    (∃ k, k < 11 ∧ f.bytes[k]? ≠ g.bytes[k]? ∧ ∀ j, j ≠ k → f.bytes[j]? = g.bytes[j]?) → valid g = false) ∧
  (∀ (f : Frame) (d : Byte), valid f = true → valid { f with p2 := f.p2 + d, p3 := f.p3 - d } = true) ∧
  (∀ f g : Frame, f.cks = g.cks → (f.bytes.take 10).Perm (g.bytes.take 10) → valid g = valid f)

/-- The frames of FRAME.RAW are eleven bytes of the given type with a valid checksum, those of FRAME.BADSUM have an
invalid one (30_encoding.md R102). -/
def Obligations.RawFramesAreValid : Prop :=
  ∀ t p0 p1 p2 p3 p4 p5 p6 p7 : Byte,
    (∃ f, Frame.ofBytes? (rawBytes t [p0, p1, p2, p3, p4, p5, p6, p7]) = some f ∧ f.typ = t ∧ valid f = true) ∧
    (∃ f, Frame.ofBytes? (badSumBytes t [p0, p1, p2, p3, p4, p5, p6, p7]) = some f ∧ f.typ = t ∧ valid f = false)

/-! ## Rounding -/

/-- `rne64` gives a binary64 value nearest to the quotient among all finite ones, the one with the even significand
where two are equally near, and +0.0 for 0 (00_scope.md R12). -/
def Obligations.RoundingIsNearestTiesToEven : Prop :=
  (∀ den : Nat, 0 < den → rne64 0 den = 0) ∧
  (∀ (num : Int) (den : Nat) (c : Binary64), 0 < den → b64Finite (rne64 num den) → b64Finite c →
    |b64Value (rne64 num den) - (num : ℚ) / den| ≤ |b64Value c - (num : ℚ) / den| ∧
    (|b64Value (rne64 num den) - (num : ℚ) / den| = |b64Value c - (num : ℚ) / den| →
      b64Value c ≠ b64Value (rne64 num den) → (rne64 num den).getLsbD 0 = false))

/-- The motion lanes are exact in binary64 for every raw value (42_decode.md R173). -/
def Obligations.MotionLanesAreExact : Prop :=
  ∀ raw : Half,
    b64Value (rne64 (raw.toInt * 16) 32768) = (raw.toInt : ℚ) / 2048 ∧
    b64Value (rne64 (raw.toInt * 2000) 32768) = (raw.toInt : ℚ) * 125 / 2048 ∧
    b64Value (rne64 (raw.toInt * 180) 32768) = (raw.toInt : ℚ) * 45 / 8192

/-- A lane over 100, 10 or 1000 is exact exactly when its raw value is a multiple of 25, 5 or 125 (42_decode.md
R173). -/
def Obligations.DecimalLanesExactIffMultiple : Prop :=
  (∀ raw : Half, b64Value (rne64 raw.toInt 100) = (raw.toInt : ℚ) / 100 ↔ 25 ∣ raw.toInt) ∧
  (∀ raw : Word32, b64Value (rne64 raw.toInt 100) = (raw.toInt : ℚ) / 100 ↔ 25 ∣ raw.toInt) ∧
  (∀ raw : Half, b64Value (rne64 raw.toInt 10) = (raw.toInt : ℚ) / 10 ↔ 5 ∣ raw.toInt) ∧
  (∀ raw : Half, b64Value (rne64 raw.toInt 1000) = (raw.toInt : ℚ) / 1000 ↔ 125 ∣ raw.toInt)

/-! ## The host window -/

/-- A read of STATUS completes with the fields at the bits of R106 and 0 in the reserved bits, and changes no state of
the FDC (30_encoding.md R106; 44_host.md R226). -/
def Obligations.StatusReadGivesFields : Prop :=
  ∀ s : State, ∃ r : Word64, exec .rdStatus s = .next { s with hRdata := r } ∧
    r.getLsbD 0 = !s.batch.isEmpty ∧ r.getLsbD 1 = s.sticky.ovf ∧ r.getLsbD 2 = s.sticky.noise ∧
    r.getLsbD 3 = s.sticky.ckerr ∧ r.getLsbD 4 = s.sticky.unktype ∧ r.extractLsb' 5 3 = 0 ∧
    r.extractLsb' 8 4 = s.lastOutcome ∧ r.extractLsb' 12 4 = 0 ∧ r.extractLsb' 16 9 = s.chValid ∧
    r.extractLsb' 25 7 = 0 ∧ (r.extractLsb' 32 32).toNat = min s.buf.length (2 ^ 32 - 1)

/-- Reads of CTRL, of the seven counters and of the snapshot's valid mask (30_encoding.md R105, R107, R108). -/
def Obligations.ControlAndCounterReads : Prop :=
  ∀ s : State,
    exec .rdCtrl s = .next { s with hRdata := if s.enable then 1 else 0 } ∧
    exec .rdCntNoise s = .next { s with hRdata := s.cnt.noise } ∧
    exec .rdCntOvf s = .next { s with hRdata := s.cnt.ovf } ∧
    exec .rdCntFrames s = .next { s with hRdata := s.cnt.frames } ∧
    exec .rdCntCksum s = .next { s with hRdata := s.cnt.cksum } ∧
    exec .rdCntUnknown s = .next { s with hRdata := s.cnt.unknown } ∧
    exec .rdCntApplied s = .next { s with hRdata := s.cnt.applied } ∧
    exec .rdCntSuppressed s = .next { s with hRdata := s.cnt.suppressed } ∧
    exec .rdSnapChValid s = .next { s with hRdata := s.snap.chValid.setWidth 64 }

/-- Reads of the snapshot bank: a binary64 field as its bit pattern, an integer field as its 64-bit two's complement
(30_encoding.md R108). -/
def Obligations.SnapshotReads : Prop :=
  ∀ s : State,
    exec .rdSnapAcceleration0 s = .next { s with hRdata := s.snap.sensor.acceleration.x0 } ∧
    exec .rdSnapAcceleration1 s = .next { s with hRdata := s.snap.sensor.acceleration.x1 } ∧
    exec .rdSnapAcceleration2 s = .next { s with hRdata := s.snap.sensor.acceleration.x2 } ∧
    exec .rdSnapAcceleration3 s = .next { s with hRdata := s.snap.sensor.acceleration.x3 } ∧
    exec .rdSnapAngularVelocity0 s = .next { s with hRdata := s.snap.sensor.angularVelocity.x0 } ∧
    exec .rdSnapAngularVelocity1 s = .next { s with hRdata := s.snap.sensor.angularVelocity.x1 } ∧
    exec .rdSnapAngularVelocity2 s = .next { s with hRdata := s.snap.sensor.angularVelocity.x2 } ∧
    exec .rdSnapAngularVelocity3 s = .next { s with hRdata := s.snap.sensor.angularVelocity.x3 } ∧
    exec .rdSnapAngle0 s = .next { s with hRdata := s.snap.sensor.angle.x0 } ∧
    exec .rdSnapAngle1 s = .next { s with hRdata := s.snap.sensor.angle.x1 } ∧
    exec .rdSnapAngle2 s = .next { s with hRdata := s.snap.sensor.angle.x2 } ∧
    exec .rdSnapAngle3 s = .next { s with hRdata := s.snap.sensor.angle.x3 } ∧
    exec .rdSnapMagneticField0 s = .next { s with hRdata := BitVec.ofInt 64 s.snap.sensor.magneticField.x0 } ∧
    exec .rdSnapMagneticField1 s = .next { s with hRdata := BitVec.ofInt 64 s.snap.sensor.magneticField.x1 } ∧
    exec .rdSnapMagneticField2 s = .next { s with hRdata := BitVec.ofInt 64 s.snap.sensor.magneticField.x2 } ∧
    exec .rdSnapMagneticField3 s = .next { s with hRdata := BitVec.ofInt 64 s.snap.sensor.magneticField.x3 } ∧
    exec .rdSnapDigitalPort0 s = .next { s with hRdata := BitVec.ofInt 64 s.snap.sensor.digitalPort.x0 } ∧
    exec .rdSnapDigitalPort1 s = .next { s with hRdata := BitVec.ofInt 64 s.snap.sensor.digitalPort.x1 } ∧
    exec .rdSnapDigitalPort2 s = .next { s with hRdata := BitVec.ofInt 64 s.snap.sensor.digitalPort.x2 } ∧
    exec .rdSnapDigitalPort3 s = .next { s with hRdata := BitVec.ofInt 64 s.snap.sensor.digitalPort.x3 } ∧
    exec .rdSnapTemperature s = .next { s with hRdata := s.snap.sensor.temperature } ∧
    exec .rdSnapPressure s = .next { s with hRdata := BitVec.ofInt 64 s.snap.sensor.pressure } ∧
    exec .rdSnapAltitude s = .next { s with hRdata := s.snap.sensor.altitude } ∧
    exec .rdSnapGroundVelocity s = .next { s with hRdata := s.snap.sensor.groundVelocity } ∧
    exec .rdSnapGpsYaw s = .next { s with hRdata := s.snap.sensor.gpsYaw } ∧
    exec .rdSnapGpsHeight s = .next { s with hRdata := s.snap.sensor.gpsHeight } ∧
    exec .rdSnapLongitude s = .next { s with hRdata := BitVec.ofInt 64 s.snap.sensor.longitude } ∧
    exec .rdSnapLatitude s = .next { s with hRdata := BitVec.ofInt 64 s.snap.sensor.latitude } ∧
    exec .rdSnapDeviceClock0 s = .next { s with hRdata := BitVec.ofInt 64 s.snap.sensor.deviceClock.year } ∧
    exec .rdSnapDeviceClock1 s = .next { s with hRdata := BitVec.ofInt 64 s.snap.sensor.deviceClock.month } ∧
    exec .rdSnapDeviceClock2 s = .next { s with hRdata := BitVec.ofInt 64 s.snap.sensor.deviceClock.day } ∧
    exec .rdSnapDeviceClock3 s = .next { s with hRdata := BitVec.ofInt 64 s.snap.sensor.deviceClock.hour } ∧
    exec .rdSnapDeviceClock4 s = .next { s with hRdata := BitVec.ofInt 64 s.snap.sensor.deviceClock.minute } ∧
    exec .rdSnapDeviceClock5 s = .next { s with hRdata := BitVec.ofInt 64 s.snap.sensor.deviceClock.second } ∧
    exec .rdSnapDeviceClock6 s = .next { s with hRdata := BitVec.ofInt 64 s.snap.sensor.deviceClock.ms }

/-- Reserved offsets read as 0 and ignore writes; the reserved bits of CTRL and STATUS read as 0, and writes to them are
ignored (30_encoding.md R109). The model's own fields stay (log 3). -/
def Obligations.ReservedReadsZeroAndIgnoresWrites : Prop :=
  (∀ (o : BitVec 7) (v : Word64) (s : State),
    (0x048 ≤ offsetOf o ∧ offsetOf o ≤ 0x0F8) ∨ (0x220 ≤ offsetOf o ∧ offsetOf o ≤ 0x3F8) →
    exec (.rdReserved o) s = .next { s with hRdata := 0 } ∧ exec (.wrOther o v) s = .next s) ∧
  (∀ s t : State, exec .rdCtrl s = .next t → t.hRdata >>> 1 = 0) ∧
  (∀ s t : State, exec .rdStatus s = .next t → t.hRdata &&& 0xFE00F0E0 = 0) ∧
  (∀ (v : Word64) (s : State), exec (.wrCtrl v) s = exec (.wrCtrl (v &&& 0xF)) s) ∧
  (∀ (v : Word64) (s : State), exec (.wrOther 1 v) s = .next s)

/-- A step that reads any defined offset of the window completes, changes no state of the FDC, and answers the register
map's value for that offset (44_host.md R225; 20_memory.md R67). -/
def Obligations.HostReadHasNoSideEffect : Prop :=
  ∀ (s : State) (off : Nat) (rest : List StepWord), off % 8 = 0 → off < 0x400 →
    s.pending = .hostRead 8 off :: rest →
    step s = .next { s with pending := rest, hRdata := memRead s.toFdc off }

/-- A write of CTRL (44_host.md R221): SNAP, CLR_CNT and CLR_STICKY act on the state before the step, ENABLE takes bit
0, and nothing else changes. The model's own fields stay (log 3). -/
def Obligations.CtrlWriteFollowsItsRule : Prop :=
  ∀ (v : Word64) (s : State), exec (.wrCtrl v) s = .next
    { s with
      snap := if v.getLsbD 1 then ⟨s.sensor, s.chValid⟩ else s.snap
      cnt := if v.getLsbD 2 then ⟨0, 0, 0, 0, 0, 0, 0⟩ else s.cnt
      sticky := if v.getLsbD 3 then ⟨false, false, false, false⟩ else s.sticky
      enable := v.getLsbD 0 }

/-- After a SNAP the bank holds S and CH_VALID as they stood before it, and keeps them through every run of well-formed
instructions with no further SNAP and no RESET (44_host.md R223). -/
def Obligations.SnapshotHoldsUntilNextSnapOrReset : Prop :=
  ∀ (v : Word64) (s : State) (is : List Instr), v.getLsbD 1 = true →
    (∀ i ∈ is, i.wf = true ∧ i ≠ .reset ∧ ∀ u, i = .wrCtrl u → u.getLsbD 1 = false) →
    (afterAll (.wrCtrl v :: is) s).snap = ⟨s.sensor, s.chValid⟩

/-- A host write to any offset but CTRL's changes no state (44_host.md R227). The model's own fields stay (log 3). -/
def Obligations.OtherWritesChangeNothing : Prop :=
  ∀ (o : BitVec 7) (v : Word64) (s : State), o ≠ 0 → exec (.wrOther o v) s = .next s

/-- The window is little-endian: the byte at `off + i` holds bits `8i+7` to `8i` of the register at `off`, so the eight
bytes make up the register (20_memory.md R62). -/
def Obligations.WindowIsLittleEndian : Prop :=
  ∀ (s : Fdc) (off : Nat), off % 8 = 0 →
    (∀ k, k < 8 → windowByte s (off + k) = (memRead s off).extractLsb' (8 * k) 8) ∧
    memRead s off = le64 (windowByte s off) (windowByte s (off + 1)) (windowByte s (off + 2)) (windowByte s (off + 3))
      (windowByte s (off + 4)) (windowByte s (off + 5)) (windowByte s (off + 6)) (windowByte s (off + 7))

/-! ## Reset -/

/-- RESET completes and writes every piece of the FDC's state, to empty, +0.0 or 0 (70_reset_and_hazards.md R280). -/
def Obligations.ResetWritesEveryItem : Prop :=
  ∀ s : State, ∃ t : State, exec .reset s = .next t ∧ t.toFdc =
    { buf := []
      batch := []
      sensor :=
        { acceleration := ⟨0, 0, 0, 0⟩, angularVelocity := ⟨0, 0, 0, 0⟩, angle := ⟨0, 0, 0, 0⟩
          magneticField := ⟨0, 0, 0, 0⟩, digitalPort := ⟨0, 0, 0, 0⟩, temperature := 0, pressure := 0, altitude := 0
          groundVelocity := 0, gpsYaw := 0, gpsHeight := 0, longitude := 0, latitude := 0
          deviceClock := ⟨0, 0, 0, 0, 0, 0, 0⟩ }
      gate := ⟨⟨0, false⟩, ⟨0, false⟩, ⟨0, false⟩, ⟨0, false⟩⟩
      enable := false
      sticky := ⟨false, false, false, false⟩
      lastOutcome := 0
      chValid := 0
      cnt := ⟨0, 0, 0, 0, 0, 0, 0⟩
      snap :=
        { sensor :=
            { acceleration := ⟨0, 0, 0, 0⟩, angularVelocity := ⟨0, 0, 0, 0⟩, angle := ⟨0, 0, 0, 0⟩
              magneticField := ⟨0, 0, 0, 0⟩, digitalPort := ⟨0, 0, 0, 0⟩, temperature := 0, pressure := 0
              altitude := 0, groundVelocity := 0, gpsYaw := 0, gpsHeight := 0, longitude := 0, latitude := 0
              deviceClock := ⟨0, 0, 0, 0, 0, 0, 0⟩ }
          chValid := 0 } }

/-- RESET leaves the model's own fields as they are: the model's choice (log 3, log 7). -/
def Obligations.ResetLeavesTheModelsOwnFields : Prop :=
  ∀ s : State, ∃ t : State, exec .reset s = .next t ∧ t.hRdata = s.hRdata ∧ t.pending = s.pending ∧ t.drawn = s.drawn

/-- After RESET every defined offset of the window reads 0 (70_reset_and_hazards.md R281). -/
def Obligations.EveryRegisterReadsZeroAfterReset : Prop :=
  ∀ (s : State) (off : Nat), off % 8 = 0 → off < 0x400 →
    ∃ i t, decode (.hostRead 8 off) = .ok i ∧ exec .reset s = .next t ∧ exec i t = .next { t with hRdata := 0 }

/-! ## Control -/

/-- Once stopped, the PARSER takes no EXTRACT step and one FRAME step per frame left; then the batch is empty, the
buffer is as it was, and no step of the PARSER does anything (44_host.md R231; 70_reset_and_hazards.md R290). -/
def Obligations.StoppedParserDrainsItsBatch : Prop :=
  ∀ (s : State) (nows : List Nat), s.enable = false → nows.length = s.batch.length →
    exec .extract s = .next s ∧
    (afterAll (nows.map .step) s).batch = [] ∧ (afterAll (nows.map .step) s).enable = false ∧
    (afterAll (nows.map .step) s).buf = s.buf ∧
    exec .extract (afterAll (nows.map .step) s) = .next (afterAll (nows.map .step) s) ∧
    ∀ now, exec (.step now) (afterAll (nows.map .step) s) = .next (afterAll (nows.map .step) s)

/-- In a quiescent state no step of the PRODUCER or the PARSER changes anything (60_exceptions.md R266). -/
def Obligations.QuiescentStateIsInert : Prop :=
  ∀ (i : Instr) (s : State), s.Quiescent → (isFrameStep i = true ∨ i = .extract ∨ ∃ b, i = .push b) →
    exec i s = .next s

/-- A stream of noise without a sync index and then frames that each begin with a sync pattern: however the PUSH, EXTRACT
and FRAME steps are interleaved, the frames sliced in the end are those of the stream, in its order (40_extract.md
R133), wherever no PUSH meets a full buffer. -/
def Obligations.SplitStreamGivesSameFrames : Prop :=
  ∀ (s : State) (noise : List Byte) (frames : List Frame) (is : List Instr) (nows : List Nat),
    s.enable = true → s.batch = [] → s.buf = [] →
    (∀ f ∈ frames, f.sync = 0x55 ∧ f.typ &&& 0x50 = 0x50) →
    (∀ j, j < noise.length → ¬ syncPairAt (noise ++ frames.flatMap Frame.bytes) j) →
    (∀ done b todo, is = done ++ .push b :: todo → Config.bufCap ≠ some (afterAll done s).buf.length) →
    (∀ i ∈ is, (∃ b, i = .push b) ∨ i = .extract ∨ (∃ now, i = .step now) ∨ isHostRead i = true) →
    pushedBytes is = noise ++ frames.flatMap Frame.bytes → frames.length ≤ nows.length →
    slicedFrames (is ++ nows.map .step ++ [.extract]) s = frames

/-! ## Invariants -/

/-- Every step keeps the control state sound: the buffer within its capacity, the batch within what it can yield, the
outcome code legal, the gate and the valid bits in agreement (10_state.md R22, R25, R31, R36; 60_exceptions.md
R251). -/
def Obligations.StepKeepsControlSound : Prop :=
  ∀ s t : State, s.Sound → step s = .next t → t.Sound

/-- Every step keeps the integer fields of S and of its snapshot in their value sets and the fourth elements at reset
(10_state.md R26, R29). -/
def Obligations.StepKeepsValueSets : Prop :=
  ∀ s t : State, s.ValuesOk → step s = .next t → t.ValuesOk

/-- Every step keeps the binary64 fields of S and of its snapshot plain: +0.0 or a normal number, never -0.0, subnormal,
infinite or NaN (93_implementation_defined.md I26, I27). -/
def Obligations.StepKeepsFloatsPlain : Prop :=
  ∀ s t : State, s.FloatsOk → step s = .next t → t.FloatsOk

/-- The state after reset meets the invariants. -/
def Obligations.ResetStateMeetsInvariants : Prop :=
  State.reset.Sound ∧ State.reset.ValuesOk ∧ State.reset.FloatsOk ∧ State.reset.Balanced ∧ State.reset.Quiescent

/-- Every well-formed instruction but a write of CLR_CNT keeps the frames counted in CNT_FRAMES balanced by the four
outcome counters and the frames still in the batch, modulo 2^64 (10_state.md R37). -/
def Obligations.FrameCountsStayBalanced : Prop :=
  ∀ (i : Instr) (s t : State), i.wf = true → (∀ v, i = .wrCtrl v → v.getLsbD 2 = false) → s.Balanced →
    exec i s = .next t → t.Balanced

/-! ## Infinite runs -/

/-- The PARSER makes progress. (a) Every infinite run of the machine is a run of the step relation that is weakly fair to
the PARSER (60_exceptions.md R263; the free order is the model's choice: log 1, log 11). (b) A batch in progress stays as
it is until a FRAME step is taken or RESET comes (R263). (c) In every weakly fair run that stays started and in which
PUSH comes again and again, a byte at a sync index, and every byte of a full buffer, leaves the buffer: it is consumed by
an EXTRACT that fills the batch, or dropped by a PUSH on a full buffer (40_extract.md R132). (d) BUF_CAP is at least 11,
and from fewer than 11 bytes EXTRACT takes nothing (R132). -/
def Obligations.FairParserConsumesSyncIndices : Prop :=
  (∀ m : Nat → State, (∀ n, step (m n) = .next (m (n + 1))) →
    ∃ order : Nat → Instr, (∀ n, decode (fetch (m n)).1 = .ok (order n)) ∧
      IsRun order (fun n => (m n).toFdc) ∧ WeaklyFair order (fun n => (m n).toFdc)) ∧
  (∀ (i : Instr) (s t : Fdc), Fdc.Steps i s t → s.batch ≠ [] → takesFrame i s = false → i ≠ .reset →
    t.batch = s.batch) ∧
  (∀ (order : Nat → Instr) (f : Nat → Fdc) (n i : Nat), IsRun order f → WeaklyFair order f →
    (∀ m, n ≤ m → (f m).enable = true) → (∀ k, ∃ m, k ≤ m ∧ ∃ b, order m = .push b) →
    (syncPairAt (f n).buf i ∨ (Config.bufCap = some (f n).buf.length ∧ i < (f n).buf.length)) →
    ∃ m, n ≤ m ∧ streamPos order f m ≤ streamPos order f n + i ∧
      streamPos order f n + i < streamPos order f (m + 1) ∧
      ((order m = .extract ∧ (f (m + 1)).batch ≠ []) ∨
        ((∃ b, order m = .push b) ∧ Config.bufCap = some (f m).buf.length))) ∧
  (∀ c, Config.bufCap = some c → 11 ≤ c) ∧
  (∀ s : Fdc, s.buf.length < 11 → extractFrames Config.syncMask s = s)
end

