-- ==== Sys2Proof/Laws/Decode.lean ====
section
/-! SUPPORT. The assembly of fields from bytes and their split into bytes undo each other (00_scope.md R11,
30_encoding.md R92, R94). -/

namespace Sys2Proof

theorem byteAt_getLsbD {n : Nat} (v : BitVec n) (i j : Nat) :
    (byteAt v i).getLsbD j = (decide (j < 8) && v.getLsbD (8 * i + j)) := by
  simp [byteAt, BitVec.getLsbD_extractLsb']

@[simp] theorem le16_byteAt (v : Half) : le16 (byteAt v 0) (byteAt v 1) = v := by
  ext j hj
  simp only [← BitVec.getLsbD_eq_getElem, le16, BitVec.getLsbD_append, byteAt_getLsbD]
  by_cases h : j < 8
  · simp [h]
  · have : 8 * 1 + (j - 8) = j := by omega
    simp [h, this, show j - 8 < 8 by omega]

@[simp] theorem byteAt_le16_0 (a b : Byte) : byteAt (le16 a b) 0 = a := by
  ext j hj
  simp only [← BitVec.getLsbD_eq_getElem, byteAt_getLsbD, le16, BitVec.getLsbD_append]
  simp [hj]

@[simp] theorem byteAt_le16_1 (a b : Byte) : byteAt (le16 a b) 1 = b := by
  ext j hj
  simp only [← BitVec.getLsbD_eq_getElem, byteAt_getLsbD, le16, BitVec.getLsbD_append]
  simp [hj]

@[simp] theorem le32_byteAt (v : Word32) : le32 (byteAt v 0) (byteAt v 1) (byteAt v 2) (byteAt v 3) = v := by
  ext j hj
  simp only [← BitVec.getLsbD_eq_getElem, le32, BitVec.getLsbD_append, byteAt_getLsbD]
  grind

@[simp] theorem le64_byteAt (v : Word64) : le64 (byteAt v 0) (byteAt v 1) (byteAt v 2) (byteAt v 3) (byteAt v 4)
    (byteAt v 5) (byteAt v 6) (byteAt v 7) = v := by
  ext j hj
  simp only [← BitVec.getLsbD_eq_getElem, le64, BitVec.getLsbD_append, byteAt_getLsbD]
  grind

theorem byteAt_le32 (a b c d : Byte) (k : Nat) (hk : k < 4) : byteAt (le32 a b c d) k = [a, b, c, d][k] := by
  interval_cases k <;>
    (ext j hj; simp only [← BitVec.getLsbD_eq_getElem, le32, BitVec.getLsbD_append, byteAt_getLsbD]; simp; grind)

theorem byteAt_le64 (a b c d e f g h : Byte) (k : Nat) (hk : k < 8) :
    byteAt (le64 a b c d e f g h) k = [a, b, c, d, e, f, g, h][k] := by
  interval_cases k <;>
    (ext j hj; simp only [← BitVec.getLsbD_eq_getElem, le64, BitVec.getLsbD_append, byteAt_getLsbD]; simp; grind)

/-- A type byte is that of a channel, or of none (30_encoding.md R93). -/
theorem channelOf_cases (t : Byte) :
    (∃ c, channelOf t = some c ∧ t = c.typeByte) ∨ (channelOf t = none ∧ knownType t = false) := by
  revert t
  decide +kernel

@[simp] theorem channelOf_typeByte (c : Channel) : channelOf c.typeByte = some c := by cases c <;> rfl

theorem ofBytes_eq_some {l : List Byte} {f : Frame} (h : Frame.ofBytes? l = some f) : l = f.bytes := by
  unfold Frame.ofBytes? at h
  split at h
  · cases h
    rfl
  · cases h

@[simp] theorem ofBytes_bytes (f : Frame) : Frame.ofBytes? f.bytes = some f := rfl

end Sys2Proof
end

