-- ==== Sys2Proof/Laws/State.lean ====
section
/-! SUPPORT. The small lemmas of State: one per field per update, true by rfl, so that no proof unfolds a record
update. -/

namespace Sys2Proof.Machine

/-! ## Recording an outcome -/

@[simp] theorem recordOutcome_buf (o : FrameOutcome) (s : Fdc) :
    (recordOutcome o s).buf = s.buf := rfl

@[simp] theorem recordOutcome_batch (o : FrameOutcome) (s : Fdc) :
    (recordOutcome o s).batch = s.batch := rfl

@[simp] theorem recordOutcome_sensor (o : FrameOutcome) (s : Fdc) :
    (recordOutcome o s).sensor = s.sensor := rfl

@[simp] theorem recordOutcome_gate (o : FrameOutcome) (s : Fdc) :
    (recordOutcome o s).gate = s.gate := rfl

@[simp] theorem recordOutcome_enable (o : FrameOutcome) (s : Fdc) :
    (recordOutcome o s).enable = s.enable := rfl

@[simp] theorem recordOutcome_sticky (o : FrameOutcome) (s : Fdc) :
    (recordOutcome o s).sticky = stickyOutcome o s.sticky := rfl

@[simp] theorem recordOutcome_lastOutcome (o : FrameOutcome) (s : Fdc) :
    (recordOutcome o s).lastOutcome = outcomeCode o := rfl

@[simp] theorem recordOutcome_chValid (o : FrameOutcome) (s : Fdc) :
    (recordOutcome o s).chValid = s.chValid := rfl

@[simp] theorem recordOutcome_cnt (o : FrameOutcome) (s : Fdc) :
    (recordOutcome o s).cnt = countOutcome o s.cnt := rfl

@[simp] theorem recordOutcome_snap (o : FrameOutcome) (s : Fdc) :
    (recordOutcome o s).snap = s.snap := rfl

/-! ## An applied frame -/

@[simp] theorem applyFrame_buf (t : Channel) (w : List FieldWrite) (now : Nat) (s : Fdc) :
    (applyFrame t w now s).buf = s.buf := rfl

@[simp] theorem applyFrame_batch (t : Channel) (w : List FieldWrite) (now : Nat) (s : Fdc) :
    (applyFrame t w now s).batch = s.batch := rfl

@[simp] theorem applyFrame_sensor (t : Channel) (w : List FieldWrite) (now : Nat) (s : Fdc) :
    (applyFrame t w now s).sensor = applyWrites w s.sensor := rfl

@[simp] theorem applyFrame_gate (t : Channel) (w : List FieldWrite) (now : Nat) (s : Fdc) :
    (applyFrame t w now s).gate = gateRecord t now s.gate := rfl

@[simp] theorem applyFrame_enable (t : Channel) (w : List FieldWrite) (now : Nat) (s : Fdc) :
    (applyFrame t w now s).enable = s.enable := rfl

@[simp] theorem applyFrame_sticky (t : Channel) (w : List FieldWrite) (now : Nat) (s : Fdc) :
    (applyFrame t w now s).sticky = s.sticky := rfl

@[simp] theorem applyFrame_lastOutcome (t : Channel) (w : List FieldWrite) (now : Nat) (s : Fdc) :
    (applyFrame t w now s).lastOutcome = s.lastOutcome := rfl

@[simp] theorem applyFrame_chValid (t : Channel) (w : List FieldWrite) (now : Nat) (s : Fdc) :
    (applyFrame t w now s).chValid = setValid t s.chValid := rfl

@[simp] theorem applyFrame_cnt (t : Channel) (w : List FieldWrite) (now : Nat) (s : Fdc) :
    (applyFrame t w now s).cnt = s.cnt := rfl

@[simp] theorem applyFrame_snap (t : Channel) (w : List FieldWrite) (now : Nat) (s : Fdc) :
    (applyFrame t w now s).snap = s.snap := rfl

/-! ## A CTRL write -/

@[simp] theorem writeCtrl_buf (v : Word64) (s : Fdc) :
    (writeCtrl v s).buf = s.buf := rfl

@[simp] theorem writeCtrl_batch (v : Word64) (s : Fdc) :
    (writeCtrl v s).batch = s.batch := rfl

@[simp] theorem writeCtrl_sensor (v : Word64) (s : Fdc) :
    (writeCtrl v s).sensor = s.sensor := rfl

@[simp] theorem writeCtrl_gate (v : Word64) (s : Fdc) :
    (writeCtrl v s).gate = s.gate := rfl

@[simp] theorem writeCtrl_enable (v : Word64) (s : Fdc) :
    (writeCtrl v s).enable = v.getLsbD 0 := rfl

@[simp] theorem writeCtrl_sticky (v : Word64) (s : Fdc) :
    (writeCtrl v s).sticky = if v.getLsbD 3 then Sticky.clear else s.sticky := rfl

@[simp] theorem writeCtrl_lastOutcome (v : Word64) (s : Fdc) :
    (writeCtrl v s).lastOutcome = s.lastOutcome := rfl

@[simp] theorem writeCtrl_chValid (v : Word64) (s : Fdc) :
    (writeCtrl v s).chValid = s.chValid := rfl

@[simp] theorem writeCtrl_cnt (v : Word64) (s : Fdc) :
    (writeCtrl v s).cnt = if v.getLsbD 2 then Counters.clear else s.cnt := rfl

@[simp] theorem writeCtrl_snap (v : Word64) (s : Fdc) :
    (writeCtrl v s).snap = if v.getLsbD 1 then takeSnapshot s else s.snap := rfl

/-! ## The machine around the FDC -/

@[simp] theorem hRdata_update_buf (v : Word64) (s : State) : { s with hRdata := v }.buf = s.buf := rfl

@[simp] theorem hRdata_update_batch (v : Word64) (s : State) : { s with hRdata := v }.batch = s.batch := rfl

@[simp] theorem hRdata_update_sensor (v : Word64) (s : State) : { s with hRdata := v }.sensor = s.sensor := rfl

@[simp] theorem hRdata_update_gate (v : Word64) (s : State) : { s with hRdata := v }.gate = s.gate := rfl

@[simp] theorem hRdata_update_enable (v : Word64) (s : State) : { s with hRdata := v }.enable = s.enable := rfl

@[simp] theorem hRdata_update_sticky (v : Word64) (s : State) : { s with hRdata := v }.sticky = s.sticky := rfl

@[simp] theorem hRdata_update_lastOutcome (v : Word64) (s : State) : { s with hRdata := v }.lastOutcome = s.lastOutcome := rfl

@[simp] theorem hRdata_update_chValid (v : Word64) (s : State) : { s with hRdata := v }.chValid = s.chValid := rfl

@[simp] theorem hRdata_update_cnt (v : Word64) (s : State) : { s with hRdata := v }.cnt = s.cnt := rfl

@[simp] theorem hRdata_update_snap (v : Word64) (s : State) : { s with hRdata := v }.snap = s.snap := rfl

@[simp] theorem onFdc_eq (f : Fdc → Fdc) (s : State) : onFdc f s = .next { s with toFdc := f s.toFdc } := rfl

@[simp] theorem hostRead_eq (off : Nat) (s : State) :
    hostRead off s = .next { s with hRdata := memRead s.toFdc off } := rfl

@[simp] theorem fetch_cons (w : StepWord) (rest : List StepWord) (f : Fdc) (r : Word64) (n : Nat) :
    fetch ⟨f, r, w :: rest, n⟩ = (w, ⟨f, r, rest, n⟩) := rfl

@[simp] theorem fetch_nil (f : Fdc) (r : Word64) (n : Nat) :
    fetch ⟨f, r, [], n⟩ = (Config.environment n, ⟨f, r, [], n + 1⟩) := rfl

/-! ## The elements of a quadruple and of the clock -/

@[simp] theorem Quad.get_0 {α : Type} (q : Quad α) : q.get 0 = q.x0 := rfl

@[simp] theorem Quad.get_1 {α : Type} (q : Quad α) : q.get 1 = q.x1 := rfl

@[simp] theorem Quad.get_2 {α : Type} (q : Quad α) : q.get 2 = q.x2 := rfl

@[simp] theorem Quad.get_3 {α : Type} (q : Quad α) : q.get 3 = q.x3 := rfl

@[simp] theorem Quad.set_0_x0 {α : Type} (q : Quad α) (v : α) : (q.set 0 v).x0 = v := rfl

@[simp] theorem Quad.set_0_x1 {α : Type} (q : Quad α) (v : α) : (q.set 0 v).x1 = q.x1 := rfl

@[simp] theorem Quad.set_0_x2 {α : Type} (q : Quad α) (v : α) : (q.set 0 v).x2 = q.x2 := rfl

@[simp] theorem Quad.set_0_x3 {α : Type} (q : Quad α) (v : α) : (q.set 0 v).x3 = q.x3 := rfl

@[simp] theorem Quad.set_1_x0 {α : Type} (q : Quad α) (v : α) : (q.set 1 v).x0 = q.x0 := rfl

@[simp] theorem Quad.set_1_x1 {α : Type} (q : Quad α) (v : α) : (q.set 1 v).x1 = v := rfl

@[simp] theorem Quad.set_1_x2 {α : Type} (q : Quad α) (v : α) : (q.set 1 v).x2 = q.x2 := rfl

@[simp] theorem Quad.set_1_x3 {α : Type} (q : Quad α) (v : α) : (q.set 1 v).x3 = q.x3 := rfl

@[simp] theorem Quad.set_2_x0 {α : Type} (q : Quad α) (v : α) : (q.set 2 v).x0 = q.x0 := rfl

@[simp] theorem Quad.set_2_x1 {α : Type} (q : Quad α) (v : α) : (q.set 2 v).x1 = q.x1 := rfl

@[simp] theorem Quad.set_2_x2 {α : Type} (q : Quad α) (v : α) : (q.set 2 v).x2 = v := rfl

@[simp] theorem Quad.set_2_x3 {α : Type} (q : Quad α) (v : α) : (q.set 2 v).x3 = q.x3 := rfl

@[simp] theorem Quad.set_3_x0 {α : Type} (q : Quad α) (v : α) : (q.set 3 v).x0 = q.x0 := rfl

@[simp] theorem Quad.set_3_x1 {α : Type} (q : Quad α) (v : α) : (q.set 3 v).x1 = q.x1 := rfl

@[simp] theorem Quad.set_3_x2 {α : Type} (q : Quad α) (v : α) : (q.set 3 v).x2 = q.x2 := rfl

@[simp] theorem Quad.set_3_x3 {α : Type} (q : Quad α) (v : α) : (q.set 3 v).x3 = v := rfl

@[simp] theorem DeviceClock.get_0 (c : DeviceClock) : c.get 0 = c.year := rfl

@[simp] theorem DeviceClock.get_1 (c : DeviceClock) : c.get 1 = c.month := rfl

@[simp] theorem DeviceClock.get_2 (c : DeviceClock) : c.get 2 = c.day := rfl

@[simp] theorem DeviceClock.get_3 (c : DeviceClock) : c.get 3 = c.hour := rfl

@[simp] theorem DeviceClock.get_4 (c : DeviceClock) : c.get 4 = c.minute := rfl

@[simp] theorem DeviceClock.get_5 (c : DeviceClock) : c.get 5 = c.second := rfl

@[simp] theorem DeviceClock.get_6 (c : DeviceClock) : c.get 6 = c.ms := rfl

@[simp] theorem DeviceClock.set_0_year (c : DeviceClock) (v : Int) : (c.set 0 v).year = v := rfl

@[simp] theorem DeviceClock.set_0_month (c : DeviceClock) (v : Int) : (c.set 0 v).month = c.month := rfl

@[simp] theorem DeviceClock.set_0_day (c : DeviceClock) (v : Int) : (c.set 0 v).day = c.day := rfl

@[simp] theorem DeviceClock.set_0_hour (c : DeviceClock) (v : Int) : (c.set 0 v).hour = c.hour := rfl

@[simp] theorem DeviceClock.set_0_minute (c : DeviceClock) (v : Int) : (c.set 0 v).minute = c.minute := rfl

@[simp] theorem DeviceClock.set_0_second (c : DeviceClock) (v : Int) : (c.set 0 v).second = c.second := rfl

@[simp] theorem DeviceClock.set_0_ms (c : DeviceClock) (v : Int) : (c.set 0 v).ms = c.ms := rfl

@[simp] theorem DeviceClock.set_1_year (c : DeviceClock) (v : Int) : (c.set 1 v).year = c.year := rfl

@[simp] theorem DeviceClock.set_1_month (c : DeviceClock) (v : Int) : (c.set 1 v).month = v := rfl

@[simp] theorem DeviceClock.set_1_day (c : DeviceClock) (v : Int) : (c.set 1 v).day = c.day := rfl

@[simp] theorem DeviceClock.set_1_hour (c : DeviceClock) (v : Int) : (c.set 1 v).hour = c.hour := rfl

@[simp] theorem DeviceClock.set_1_minute (c : DeviceClock) (v : Int) : (c.set 1 v).minute = c.minute := rfl

@[simp] theorem DeviceClock.set_1_second (c : DeviceClock) (v : Int) : (c.set 1 v).second = c.second := rfl

@[simp] theorem DeviceClock.set_1_ms (c : DeviceClock) (v : Int) : (c.set 1 v).ms = c.ms := rfl

@[simp] theorem DeviceClock.set_2_year (c : DeviceClock) (v : Int) : (c.set 2 v).year = c.year := rfl

@[simp] theorem DeviceClock.set_2_month (c : DeviceClock) (v : Int) : (c.set 2 v).month = c.month := rfl

@[simp] theorem DeviceClock.set_2_day (c : DeviceClock) (v : Int) : (c.set 2 v).day = v := rfl

@[simp] theorem DeviceClock.set_2_hour (c : DeviceClock) (v : Int) : (c.set 2 v).hour = c.hour := rfl

@[simp] theorem DeviceClock.set_2_minute (c : DeviceClock) (v : Int) : (c.set 2 v).minute = c.minute := rfl

@[simp] theorem DeviceClock.set_2_second (c : DeviceClock) (v : Int) : (c.set 2 v).second = c.second := rfl

@[simp] theorem DeviceClock.set_2_ms (c : DeviceClock) (v : Int) : (c.set 2 v).ms = c.ms := rfl

@[simp] theorem DeviceClock.set_3_year (c : DeviceClock) (v : Int) : (c.set 3 v).year = c.year := rfl

@[simp] theorem DeviceClock.set_3_month (c : DeviceClock) (v : Int) : (c.set 3 v).month = c.month := rfl

@[simp] theorem DeviceClock.set_3_day (c : DeviceClock) (v : Int) : (c.set 3 v).day = c.day := rfl

@[simp] theorem DeviceClock.set_3_hour (c : DeviceClock) (v : Int) : (c.set 3 v).hour = v := rfl

@[simp] theorem DeviceClock.set_3_minute (c : DeviceClock) (v : Int) : (c.set 3 v).minute = c.minute := rfl

@[simp] theorem DeviceClock.set_3_second (c : DeviceClock) (v : Int) : (c.set 3 v).second = c.second := rfl

@[simp] theorem DeviceClock.set_3_ms (c : DeviceClock) (v : Int) : (c.set 3 v).ms = c.ms := rfl

@[simp] theorem DeviceClock.set_4_year (c : DeviceClock) (v : Int) : (c.set 4 v).year = c.year := rfl

@[simp] theorem DeviceClock.set_4_month (c : DeviceClock) (v : Int) : (c.set 4 v).month = c.month := rfl

@[simp] theorem DeviceClock.set_4_day (c : DeviceClock) (v : Int) : (c.set 4 v).day = c.day := rfl

@[simp] theorem DeviceClock.set_4_hour (c : DeviceClock) (v : Int) : (c.set 4 v).hour = c.hour := rfl

@[simp] theorem DeviceClock.set_4_minute (c : DeviceClock) (v : Int) : (c.set 4 v).minute = v := rfl

@[simp] theorem DeviceClock.set_4_second (c : DeviceClock) (v : Int) : (c.set 4 v).second = c.second := rfl

@[simp] theorem DeviceClock.set_4_ms (c : DeviceClock) (v : Int) : (c.set 4 v).ms = c.ms := rfl

@[simp] theorem DeviceClock.set_5_year (c : DeviceClock) (v : Int) : (c.set 5 v).year = c.year := rfl

@[simp] theorem DeviceClock.set_5_month (c : DeviceClock) (v : Int) : (c.set 5 v).month = c.month := rfl

@[simp] theorem DeviceClock.set_5_day (c : DeviceClock) (v : Int) : (c.set 5 v).day = c.day := rfl

@[simp] theorem DeviceClock.set_5_hour (c : DeviceClock) (v : Int) : (c.set 5 v).hour = c.hour := rfl

@[simp] theorem DeviceClock.set_5_minute (c : DeviceClock) (v : Int) : (c.set 5 v).minute = c.minute := rfl

@[simp] theorem DeviceClock.set_5_second (c : DeviceClock) (v : Int) : (c.set 5 v).second = v := rfl

@[simp] theorem DeviceClock.set_5_ms (c : DeviceClock) (v : Int) : (c.set 5 v).ms = c.ms := rfl

@[simp] theorem DeviceClock.set_6_year (c : DeviceClock) (v : Int) : (c.set 6 v).year = c.year := rfl

@[simp] theorem DeviceClock.set_6_month (c : DeviceClock) (v : Int) : (c.set 6 v).month = c.month := rfl

@[simp] theorem DeviceClock.set_6_day (c : DeviceClock) (v : Int) : (c.set 6 v).day = c.day := rfl

@[simp] theorem DeviceClock.set_6_hour (c : DeviceClock) (v : Int) : (c.set 6 v).hour = c.hour := rfl

@[simp] theorem DeviceClock.set_6_minute (c : DeviceClock) (v : Int) : (c.set 6 v).minute = c.minute := rfl

@[simp] theorem DeviceClock.set_6_second (c : DeviceClock) (v : Int) : (c.set 6 v).second = c.second := rfl

@[simp] theorem DeviceClock.set_6_ms (c : DeviceClock) (v : Int) : (c.set 6 v).ms = v := rfl

end Sys2Proof.Machine
end

