-- ==== Sys2Proof/Laws/Ops.lean ====
section
/-! SUPPORT. One lemma for each shared operation that says once everything it can do; the proofs cite these instead of
unfolding the operations. -/

namespace Sys2Proof.Machine

/-! ## PUSH -/

theorem pushByte_cases (cap : Option Nat) (b : Byte) (s : Fdc) :
    (s.enable = false ∧ pushByte cap b s = s) ∨
    (s.enable = true ∧ cap = some s.buf.length ∧ pushByte cap b s = { s with
      buf := s.buf.drop 1 ++ [b]
      cnt := { s.cnt with ovf := s.cnt.ovf + 1 }
      sticky := { s.sticky with ovf := true } }) ∨
    (s.enable = true ∧ cap ≠ some s.buf.length ∧ pushByte cap b s = { s with buf := s.buf ++ [b] }) := by
  unfold pushByte
  cases he : s.enable
  · simp
  · by_cases hc : cap = some s.buf.length <;> simp [hc]

/-! ## The sync scan -/

theorem isSync_iff (mask : Byte) (buf : List Byte) (i : Nat) :
    isSync mask buf i = true ↔ i + 1 < buf.length ∧ buf.getD i 0 = 0x55 ∧ buf.getD (i + 1) 0 &&& mask = 0x50 := by
  simp [isSync, Config.syncByte, Config.syncMatch, and_assoc]

theorem scan_eq_some_iff (mask : Byte) (buf : List Byte) (h : Nat) :
    scan mask buf = some h ↔ isSync mask buf h = true ∧ ∀ j, j < h → isSync mask buf j = false := by
  unfold scan
  rw [List.find?_range_eq_some]
  constructor
  · rintro ⟨h1, -, h3⟩
    exact ⟨h1, fun j hj => by simpa using h3 j hj⟩
  · rintro ⟨h1, h2⟩
    have := ((isSync_iff mask buf h).1 h1).1
    exact ⟨h1, by simp; omega, fun j hj => by simp [h2 j hj]⟩

theorem scan_eq_none_iff (mask : Byte) (buf : List Byte) :
    scan mask buf = none ↔ ∀ j, isSync mask buf j = false := by
  unfold scan
  rw [List.find?_eq_none]
  constructor
  · intro h j
    by_contra hj
    rw [Bool.not_eq_false] at hj
    have := ((isSync_iff mask buf j).1 hj).1
    exact h j (by simp; omega) hj
  · intro h j _
    simp [h j]

/-! ## Slicing -/

theorem frameAt_bytes (buf : List Byte) (i : Nat) (h : i + 11 ≤ buf.length) :
    (frameAt buf i).bytes = (buf.drop i).take 11 := by
  apply List.ext_getElem
  · simp [Frame.bytes]; omega
  · intro n h1 h2
    have hn : n < 11 := by simpa [Frame.bytes] using h1
    have : i + n < buf.length := by omega
    have hg : ∀ (hk : i + n < buf.length), buf[i + n]?.getD 0 = buf[i + n] := fun hk => by
      rw [List.getElem?_eq_getElem hk, Option.getD_some]
    interval_cases n <;> simpa [frameAt, Frame.bytes, List.getD_eq_getElem?_getD] using hg this

theorem sliceFrames_length (buf : List Byte) (h count : Nat) : (sliceFrames buf h count).length = count := by
  simp [sliceFrames]

/-! ## EXTRACT -/

theorem extractFrames_cases (mask : Byte) (s : Fdc) :
    extractFrames mask s = s ∨
    (s.enable = true ∧ s.batch = [] ∧ ∃ h, scan mask s.buf = some h ∧ frameCount s.buf h ≠ 0 ∧
      extractFrames mask s = { s with
        batch := sliceFrames s.buf h (frameCount s.buf h)
        buf := s.buf.drop (h + 11 * frameCount s.buf h)
        cnt := { s.cnt with
          noise := s.cnt.noise + BitVec.ofNat 64 h
          frames := s.cnt.frames + BitVec.ofNat 64 (frameCount s.buf h) }
        sticky := { s.sticky with noise := s.sticky.noise || decide (0 < h) } }) := by
  unfold extractFrames
  by_cases he : extractEnabled s = true
  · have hb : s.enable = true ∧ s.batch = [] := by simpa [extractEnabled] using he
    cases hs : scan mask s.buf with
    | none => simp [he]
    | some h =>
      by_cases hc : frameCount s.buf h = 0
      · simp [he, hc]
      · right
        exact ⟨hb.1, hb.2, h, rfl, hc, by simp [he, hc, Config.frameLen]⟩
  · simp [he]

/-! ## The gate and the FRAME step -/

theorem gateAccepts_iff (interval : Nat) (e : GateEntry) (now : Nat) :
    gateAccepts interval e now = true ↔ e.seen = false ∨ (interval : Int) ≤ (now : Int) - e.last := by
  simp [gateAccepts]

theorem rateIntervalTicks_pos : 1 ≤ Config.rateIntervalTicks := by
  unfold Config.rateIntervalTicks Config.tickHz
  omega

theorem frameOutcome_cases (interval now : Nat) (G : Quad GateEntry) (f : Frame) (d : Decoded) :
    (valid f = false ∧ frameOutcome interval now G f d = .droppedChecksum) ∨
    (valid f = true ∧ d = .rejected ∧ frameOutcome interval now G f d = .droppedUnknown) ∨
    (valid f = true ∧ ∃ t w, d = .known t w ∧
      ((gateIndex t = none ∧ frameOutcome interval now G f d = .applied) ∨
       ∃ g, gateIndex t = some g ∧
        ((gateAccepts interval (G.get g) now = true ∧ frameOutcome interval now G f d = .applied) ∨
         (gateAccepts interval (G.get g) now = false ∧ frameOutcome interval now G f d = .suppressed)))) := by
  unfold frameOutcome
  cases hv : valid f
  · simp
  · cases d with
    | rejected => simp
    | known t w =>
      cases hg : gateIndex t with
      | none => simp [hg]
      | some g => cases ha : gateAccepts interval (G.get g) now <;> simp [hg, ha]

theorem frameOutcome_applied_known {interval now : Nat} {G : Quad GateEntry} {f : Frame} {d : Decoded}
    (h : frameOutcome interval now G f d = .applied) : ∃ t w, d = .known t w := by
  rcases frameOutcome_cases interval now G f d with ⟨_, h'⟩ | ⟨_, _, h'⟩ | ⟨_, t, w, hd, _⟩
  · rw [h] at h'; cases h'
  · rw [h] at h'; cases h'
  · exact ⟨t, w, hd⟩

theorem retireFrame_cases (interval now : Nat) (f : Frame) (d : Decoded) (s : Fdc) :
    (frameOutcome interval now s.gate f d ≠ .applied ∧
      retireFrame interval now f d s =
        recordOutcome (frameOutcome interval now s.gate f d) { s with batch := s.batch.tail }) ∨
    ∃ t w, d = .known t w ∧ frameOutcome interval now s.gate f d = .applied ∧
      retireFrame interval now f d s =
        applyFrame t w now (recordOutcome .applied { s with batch := s.batch.tail }) := by
  unfold retireFrame
  cases ho : frameOutcome interval now s.gate f d with
  | applied =>
    obtain ⟨t, w, rfl⟩ := frameOutcome_applied_known ho
    exact .inr ⟨t, w, rfl, rfl, rfl⟩
  | _ => exact .inl ⟨by simp, rfl⟩

theorem frameStepOn_cases (interval now : Nat) (f : Frame) (d : Decoded) (s : Fdc) :
    (s.batch.head? ≠ some f ∧ frameStepOn interval now f d s = s) ∨
    (s.batch.head? = some f ∧ frameStepOn interval now f d s = retireFrame interval now f d s) := by
  unfold frameStepOn
  by_cases h : s.batch.head? = some f <;> simp [h]

theorem frameStepHead_nil (interval : Nat) (lut : ScaleLut) (now : Nat) (s : Fdc) (h : s.batch = []) :
    frameStepHead interval lut now s = s := by
  unfold frameStepHead
  rw [h]

theorem frameStepHead_cons (interval : Nat) (lut : ScaleLut) (now : Nat) (s : Fdc) (f : Frame) (rest : List Frame)
    (h : s.batch = f :: rest) :
    frameStepHead interval lut now s = retireFrame interval now f (decodePayload lut f) s := by
  unfold frameStepHead
  rw [h]

/-! ## The host window -/

theorem memWrite_ctrl (v : Word64) (s : Fdc) : memWrite 0x000 v s = writeCtrl v s := rfl

theorem memWrite_other (off : Nat) (v : Word64) (s : Fdc) (h : off ≠ 0) : memWrite off v s = s := by
  simp [memWrite, h]

/-! ## The machine -/

theorem fetch_of_pending {s : State} {w : StepWord} {rest : List StepWord} (h : s.pending = w :: rest) :
    fetch s = (w, { s with pending := rest }) := by
  unfold fetch
  rw [h]

theorem fetch_of_no_pending {s : State} (h : s.pending = []) :
    fetch s = (Config.environment s.drawn, { s with drawn := s.drawn + 1 }) := by
  obtain ⟨f, r, p, d⟩ := s
  dsimp only at h
  subst h
  rfl

theorem step_of_pending {s : State} {w : StepWord} {rest : List StepWord} {i : Instr} (h : s.pending = w :: rest)
    (hd : decode w = .ok i) : step s = exec i { s with pending := rest } := by
  simp [step, fetch_of_pending h, hd]

/-- The row a frame decodes to runs the FRAME step on that frame with its decode (43_gate_apply.md R195). -/
theorem exec_decodeFrame (now : Nat) (f : Frame) (s : State) : exec (decodeFrame now f) s =
    onFdc (frameStepOn Config.rateIntervalTicks now f (decodePayload Config.scaleLut f)) s := by
  rcases channelOf_cases f.typ with ⟨c, hc, ht⟩ | ⟨hc, hk⟩
  · obtain ⟨_, t, _, _, _, _, _, _, _, _, _⟩ := f
    dsimp only at hc ht
    subst ht
    cases c <;>
      simp [decodeFrame, decodePayload, exec, execClock, execAcc, execGyro, execAngle, execMag, execPort,
        execPress, execLonlat, execGpsv, execKnown, clockFrame, halvesFrame, wordsFrame, Frame.half0, Frame.half1,
        Frame.half2, Frame.half3, Frame.word0, Frame.word1, byteAt_le32]
  · simp [decodeFrame, hc, decodePayload, exec, execUnknown, unknownFrame, byteAt_le64]

/-! ## Everything an instruction can do -/

/-- What a well-formed instruction can do to the FDC: nothing, or the one operation of its kind. -/
inductive Effect (i : Instr) (s : Fdc) : Fdc → Prop where
  | same : Effect i s s
  | push (b : Byte) : i = .push b → Effect i s (pushByte Config.bufCap b s)
  | extract : i = .extract → Effect i s (extractFrames Config.syncMask s)
  | reset : i = .reset → Effect i s Fdc.reset
  | ctrl (v : Word64) : i = .wrCtrl v → Effect i s (writeCtrl v s)
  | frame (now : Nat) (f : Frame) (rest : List Frame) : isFrameStep i = true → s.batch = f :: rest →
      Effect i s (retireFrame Config.rateIntervalTicks now f (decodePayload Config.scaleLut f) s)

theorem effect_of_decodeFrame {i : Instr} {s t : State} (now : Nat) (f : Frame) (hi : i = decodeFrame now f)
    (hf : isFrameStep i = true) (h : exec i s = .next t) : Effect i s.toFdc t.toFdc := by
  subst hi
  rw [exec_decodeFrame] at h
  cases h
  rcases frameStepOn_cases Config.rateIntervalTicks now f (decodePayload Config.scaleLut f) s.toFdc with
    ⟨-, e⟩ | ⟨hh, e⟩
  · simp only [e]
    exact .same
  · simp only [e]
    cases hb : s.batch with
    | nil => simp [hb] at hh
    | cons g rest =>
      obtain rfl : g = f := by simpa [hb] using hh
      exact .frame now g rest hf hb

theorem exec_effect {i : Instr} {s t : State} (hw : i.wf = true) (h : exec i s = .next t) :
    Effect i s.toFdc t.toFdc := by
  cases i
  case step now =>
    cases h
    cases hb : s.batch with
    | nil =>
      simp only [frameStepHead_nil _ _ _ _ hb]
      exact .same
    | cons f rest =>
      simp only [frameStepHead_cons _ _ _ _ _ _ hb]
      exact .frame now f rest rfl hb
  case push b =>
    cases h
    exact .push b rfl
  case extract =>
    cases h
    exact .extract rfl
  case reset =>
    cases h
    exact .reset rfl
  case wrCtrl v =>
    cases h
    exact .ctrl v rfl
  case wrOther o v =>
    cases h
    have ho : offsetOf o ≠ 0 := by
      have hne : o ≠ 0 := by simpa [Instr.wf] using hw
      intro h0
      exact hne (BitVec.eq_of_toNat_eq (by simpa [offsetOf] using h0))
    simp only [memWrite_other _ _ _ ho]
    exact .same
  case clock now sync a b c d e f ms k =>
    exact effect_of_decodeFrame now (clockFrame sync a b c d e f ms k) (by simp [decodeFrame, clockFrame, Frame.half3])
      rfl h
  case acc now sync a b c d k =>
    exact effect_of_decodeFrame now (halvesFrame sync Channel.acc.typeByte a b c d k)
      (by simp [decodeFrame, halvesFrame, Frame.half0, Frame.half1, Frame.half2, Frame.half3]) rfl h
  case gyro now sync a b c d k =>
    exact effect_of_decodeFrame now (halvesFrame sync Channel.gyro.typeByte a b c d k)
      (by simp [decodeFrame, halvesFrame, Frame.half0, Frame.half1, Frame.half2, Frame.half3]) rfl h
  case angle now sync a b c d k =>
    exact effect_of_decodeFrame now (halvesFrame sync Channel.angle.typeByte a b c d k)
      (by simp [decodeFrame, halvesFrame, Frame.half0, Frame.half1, Frame.half2, Frame.half3]) rfl h
  case mag now sync a b c d k =>
    exact effect_of_decodeFrame now (halvesFrame sync Channel.mag.typeByte a b c d k)
      (by simp [decodeFrame, halvesFrame, Frame.half0, Frame.half1, Frame.half2, Frame.half3]) rfl h
  case port now sync a b c d k =>
    exact effect_of_decodeFrame now (halvesFrame sync Channel.port.typeByte a b c d k)
      (by simp [decodeFrame, halvesFrame, Frame.half0, Frame.half1, Frame.half2, Frame.half3]) rfl h
  case gpsv now sync a b c d k =>
    exact effect_of_decodeFrame now (halvesFrame sync Channel.gpsv.typeByte a b c d k)
      (by simp [decodeFrame, halvesFrame, Frame.half0, Frame.half1, Frame.half2, Frame.half3]) rfl h
  case press now sync a b k =>
    exact effect_of_decodeFrame now (wordsFrame sync Channel.press.typeByte a b k)
      (by simp [decodeFrame, wordsFrame, Frame.word0, Frame.word1]) rfl h
  case lonlat now sync a b k =>
    exact effect_of_decodeFrame now (wordsFrame sync Channel.lonlat.typeByte a b k)
      (by simp [decodeFrame, wordsFrame, Frame.word0, Frame.word1]) rfl h
  case unknown now sync typ p k =>
    have hk : knownType typ = false := by simpa [Instr.wf] using hw
    have hc : channelOf typ = none := by
      rcases channelOf_cases typ with ⟨c, -, ht⟩ | ⟨hc, -⟩
      · subst ht
        cases c <;> simp [knownType, Channel.typeByte] at hk
      · exact hc
    exact effect_of_decodeFrame now (unknownFrame sync typ p k) (by simp [decodeFrame, unknownFrame, hc]) rfl h
  all_goals
    cases h
    exact .same

end Sys2Proof.Machine
end

