-- ==== Sys2Proof/Laws/PerInstr.lean ====
section
/-! SUPPORT. Statements about every instruction, proved one constructor at a time. -/

namespace Sys2Proof.Laws.EncodeWellFormed

/-- A well-formed instruction is encoded as a well-formed step: a frame of eleven bytes, or a host access of eight
bytes at a multiple of eight below 0x400 (30_encoding.md R90, R103; 20_memory.md R65). -/
def Statement (i : Instr) : Prop := i.wf = true → (encode i).wf = true

/-- A multiple of eight below 0x400, eight bytes wide, is a defined access. -/
theorem offsetOf_ok (o : BitVec 7) : hostAccessOk 8 (offsetOf o) = true := by
  have : 8 * o.toNat < 0x400 := by have := o.isLt; omega
  simp [hostAccessOk, offsetOf, this]

theorem clock : ∀ a b c d e f g h i j, Statement (.clock a b c d e f g h i j) := fun _ _ _ _ _ _ _ _ _ _ _ => rfl

theorem acc : ∀ a b c d e f g, Statement (.acc a b c d e f g) := fun _ _ _ _ _ _ _ _ => rfl

theorem gyro : ∀ a b c d e f g, Statement (.gyro a b c d e f g) := fun _ _ _ _ _ _ _ _ => rfl

theorem angle : ∀ a b c d e f g, Statement (.angle a b c d e f g) := fun _ _ _ _ _ _ _ _ => rfl

theorem mag : ∀ a b c d e f g, Statement (.mag a b c d e f g) := fun _ _ _ _ _ _ _ _ => rfl

theorem port : ∀ a b c d e f g, Statement (.port a b c d e f g) := fun _ _ _ _ _ _ _ _ => rfl

theorem press : ∀ a b c d e, Statement (.press a b c d e) := fun _ _ _ _ _ _ => rfl

theorem lonlat : ∀ a b c d e, Statement (.lonlat a b c d e) := fun _ _ _ _ _ _ => rfl

theorem gpsv : ∀ a b c d e f g, Statement (.gpsv a b c d e f g) := fun _ _ _ _ _ _ _ _ => rfl

theorem unknown : ∀ a b c d e, Statement (.unknown a b c d e) := fun _ _ _ _ _ _ => rfl

theorem rdCtrl : Statement .rdCtrl := fun _ => rfl

theorem rdStatus : Statement .rdStatus := fun _ => rfl

theorem rdCntNoise : Statement .rdCntNoise := fun _ => rfl

theorem rdCntOvf : Statement .rdCntOvf := fun _ => rfl

theorem rdCntFrames : Statement .rdCntFrames := fun _ => rfl

theorem rdCntCksum : Statement .rdCntCksum := fun _ => rfl

theorem rdCntUnknown : Statement .rdCntUnknown := fun _ => rfl

theorem rdCntApplied : Statement .rdCntApplied := fun _ => rfl

theorem rdCntSuppressed : Statement .rdCntSuppressed := fun _ => rfl

theorem rdSnapAcceleration0 : Statement .rdSnapAcceleration0 := fun _ => rfl

theorem rdSnapAcceleration1 : Statement .rdSnapAcceleration1 := fun _ => rfl

theorem rdSnapAcceleration2 : Statement .rdSnapAcceleration2 := fun _ => rfl

theorem rdSnapAcceleration3 : Statement .rdSnapAcceleration3 := fun _ => rfl

theorem rdSnapAngularVelocity0 : Statement .rdSnapAngularVelocity0 := fun _ => rfl

theorem rdSnapAngularVelocity1 : Statement .rdSnapAngularVelocity1 := fun _ => rfl

theorem rdSnapAngularVelocity2 : Statement .rdSnapAngularVelocity2 := fun _ => rfl

theorem rdSnapAngularVelocity3 : Statement .rdSnapAngularVelocity3 := fun _ => rfl

theorem rdSnapAngle0 : Statement .rdSnapAngle0 := fun _ => rfl

theorem rdSnapAngle1 : Statement .rdSnapAngle1 := fun _ => rfl

theorem rdSnapAngle2 : Statement .rdSnapAngle2 := fun _ => rfl

theorem rdSnapAngle3 : Statement .rdSnapAngle3 := fun _ => rfl

theorem rdSnapMagneticField0 : Statement .rdSnapMagneticField0 := fun _ => rfl

theorem rdSnapMagneticField1 : Statement .rdSnapMagneticField1 := fun _ => rfl

theorem rdSnapMagneticField2 : Statement .rdSnapMagneticField2 := fun _ => rfl

theorem rdSnapMagneticField3 : Statement .rdSnapMagneticField3 := fun _ => rfl

theorem rdSnapDigitalPort0 : Statement .rdSnapDigitalPort0 := fun _ => rfl

theorem rdSnapDigitalPort1 : Statement .rdSnapDigitalPort1 := fun _ => rfl

theorem rdSnapDigitalPort2 : Statement .rdSnapDigitalPort2 := fun _ => rfl

theorem rdSnapDigitalPort3 : Statement .rdSnapDigitalPort3 := fun _ => rfl

theorem rdSnapTemperature : Statement .rdSnapTemperature := fun _ => rfl

theorem rdSnapPressure : Statement .rdSnapPressure := fun _ => rfl

theorem rdSnapAltitude : Statement .rdSnapAltitude := fun _ => rfl

theorem rdSnapGroundVelocity : Statement .rdSnapGroundVelocity := fun _ => rfl

theorem rdSnapGpsYaw : Statement .rdSnapGpsYaw := fun _ => rfl

theorem rdSnapGpsHeight : Statement .rdSnapGpsHeight := fun _ => rfl

theorem rdSnapLongitude : Statement .rdSnapLongitude := fun _ => rfl

theorem rdSnapLatitude : Statement .rdSnapLatitude := fun _ => rfl

theorem rdSnapDeviceClock0 : Statement .rdSnapDeviceClock0 := fun _ => rfl

theorem rdSnapDeviceClock1 : Statement .rdSnapDeviceClock1 := fun _ => rfl

theorem rdSnapDeviceClock2 : Statement .rdSnapDeviceClock2 := fun _ => rfl

theorem rdSnapDeviceClock3 : Statement .rdSnapDeviceClock3 := fun _ => rfl

theorem rdSnapDeviceClock4 : Statement .rdSnapDeviceClock4 := fun _ => rfl

theorem rdSnapDeviceClock5 : Statement .rdSnapDeviceClock5 := fun _ => rfl

theorem rdSnapDeviceClock6 : Statement .rdSnapDeviceClock6 := fun _ => rfl

theorem rdSnapChValid : Statement .rdSnapChValid := fun _ => rfl

theorem rdReserved : ∀ a, Statement (.rdReserved a) := fun o _ => offsetOf_ok o

theorem wrCtrl : ∀ a, Statement (.wrCtrl a) := fun _ _ => rfl

theorem wrOther : ∀ a b, Statement (.wrOther a b) := fun o _ _ => offsetOf_ok o

theorem push : ∀ a, Statement (.push a) := fun _ _ => rfl

theorem extract : Statement .extract := fun _ => rfl

theorem step : ∀ a, Statement (.step a) := fun _ _ => rfl

theorem reset : Statement .reset := fun _ => rfl

end Sys2Proof.Laws.EncodeWellFormed
end

