-- ==== Sys2Proof/Laws/Runs.lean ====
section
/-! SUPPORT. What the free order of steps gives, what a step does to the model's own fields, and what leaves the buffer;
the proofs about infinite runs cite these. -/

namespace Sys2Proof

/-! ## The free order of steps -/

/-- Every step of the free order is one the spec defines: the encoding of any instruction decodes to a well-formed one. -/
theorem decode_encode_ok (i : Instr) : ∃ j, decode (encode i) = .ok j ∧ j.wf = true := by
  have hread : ∀ o : BitVec 7, (decodeRead (offsetOf o)).wf = true := by decide +kernel
  have hoff : ∀ o : BitVec 7, offsetOf o % 8 = 0 ∧ ¬ 0x400 ≤ offsetOf o := by
    intro o
    have := o.isLt
    simp only [offsetOf]
    omega
  have hframe : ∀ now f, (decodeFrame now f).wf = true := by
    intro now f
    rcases channelOf_cases f.typ with ⟨c, hc, -⟩ | ⟨hc, hk⟩
    · cases c <;> simp [decodeFrame, hc, Instr.wf]
    · simp [decodeFrame, hc, Instr.wf, hk]
  cases i
  case rdReserved o => exact ⟨_, by simp [encode, decode, decodeHost, hoff o], hread o⟩
  case wrOther o v =>
    refine ⟨_, by simp [encode, decode, decodeHost, hoff o]; rfl, ?_⟩
    unfold decodeWrite
    split
    · rfl
    · rename_i h
      simp only [offsetOf, Nat.mul_div_cancel_left _ (show 0 < 8 by decide), BitVec.ofNat_toNat, BitVec.setWidth_eq,
        Instr.wf, bne_iff_ne]
      rintro rfl
      exact h rfl
  case clock | acc | gyro | angle | mag | port | press | lonlat | gpsv | unknown =>
    exact ⟨_, rfl, hframe _ _⟩
  all_goals exact ⟨_, rfl, rfl⟩

/-- The turns before turn `n`, one after the other. -/
def turnsBefore (n : Nat) : List StepWord := (List.range n).flatMap Config.turn

theorem turnsBefore_succ (n : Nat) : turnsBefore (n + 1) =
    turnsBefore n ++ ((Config.otherSteps n).map encode ++ [Config.parserWord n]) := by
  simp [turnsBefore, List.range_succ, Config.turn]

theorem le_length_turnsBefore (n : Nat) : n ≤ (turnsBefore n).length := by
  induction n with
  | zero => simp
  | succ n ih =>
    rw [turnsBefore_succ]
    simp only [List.length_append, List.length_cons]
    omega

theorem turnsBefore_prefix {k n : Nat} (h : k ≤ n) : turnsBefore k <+: turnsBefore n := by
  induction n, h using Nat.le_induction with
  | base => exact List.prefix_rfl
  | succ n _ ih =>
    rw [turnsBefore_succ]
    exact ih.trans (List.prefix_append _ _)

theorem environment_eq_getElem {n j : Nat} (h : j < (turnsBefore n).length) :
    Config.environment j = (turnsBefore n)[j] := by
  have hj : j < (turnsBefore (j + 1)).length := le_length_turnsBefore (j + 1)
  have e : Config.environment j = (turnsBefore (j + 1))[j] := by
    show (turnsBefore (j + 1)).getD j .extract = _
    simp [List.getD_eq_getElem?_getD, List.getElem?_eq_getElem hj]
  rw [e]
  rcases Nat.le_total n (j + 1) with hn | hn
  · exact ((turnsBefore_prefix hn).getElem h).symm
  · exact (turnsBefore_prefix hn).getElem hj

/-- The PARSER's turns come again and again: turn `k` stands at or after place `k` of the free order. -/
theorem environment_parserWord (k : Nat) : ∃ j, k ≤ j ∧ Config.environment j = Config.parserWord k := by
  have hl : (turnsBefore (k + 1)).length = (turnsBefore k).length + (Config.otherSteps k).length + 1 := by
    rw [turnsBefore_succ]
    simp
    omega
  have hk := le_length_turnsBefore k
  refine ⟨(turnsBefore (k + 1)).length - 1, by omega, ?_⟩
  rw [environment_eq_getElem (n := k + 1) (by omega)]
  simp [turnsBefore_succ]

theorem environment_extract (n : Nat) : ∃ j, n ≤ j ∧ Config.environment j = .extract := by
  obtain ⟨j, hj, e⟩ := environment_parserWord (2 * n)
  exact ⟨j, by omega, by rw [e]; simp [Config.parserWord]⟩

theorem environment_frameStep (n : Nat) : ∃ j, n ≤ j ∧ ∃ now, Config.environment j = .frameStep now := by
  obtain ⟨j, hj, e⟩ := environment_parserWord (2 * n + 1)
  exact ⟨j, by omega, _, by rw [e]; simp [Config.parserWord]; rfl⟩

/-- No step of the free order is refused. -/
theorem decode_environment_ok (n : Nat) : ∃ j, decode (Config.environment n) = .ok j ∧ j.wf = true := by
  have hn : n < (turnsBefore (n + 1)).length := le_length_turnsBefore (n + 1)
  have hm : Config.environment n ∈ turnsBefore (n + 1) := by
    rw [environment_eq_getElem hn]
    exact List.getElem_mem hn
  obtain ⟨k, -, hk⟩ := List.mem_flatMap.1 hm
  rcases List.mem_append.1 hk with h | h
  · obtain ⟨i, -, hi⟩ := List.mem_map.1 h
    rw [← hi]
    exact decode_encode_ok i
  · rw [List.mem_singleton.1 h]
    unfold Config.parserWord
    split <;> exact ⟨_, rfl, rfl⟩

end Sys2Proof

namespace Sys2Proof.Machine

/-! ## The model's own fields along a step -/

/-- No meaning changes the fixed steps or the count of draws. -/
theorem exec_own {i : Instr} {s t : State} (h : exec i s = .next t) : t.pending = s.pending ∧ t.drawn = s.drawn := by
  cases i <;> (cases h; exact ⟨rfl, rfl⟩)

/-- Every meaning answers a next state. -/
theorem exec_next (i : Instr) (s : State) : ∃ t, exec i s = .next t := by
  cases i <;> exact ⟨_, rfl⟩

/-- A step of the machine that completes is a step of the relation, with the instruction its word decodes to. -/
theorem steps_of_step {s t : State} (h : step s = .next t) :
    ∃ i, decode (fetch s).1 = .ok i ∧ Fdc.Steps i s.toFdc t.toFdc ∧ t.pending = (fetch s).2.pending ∧
      t.drawn = (fetch s).2.drawn := by
  unfold step at h
  cases hd : decode (fetch s).1 with
  | error e => simp [hd] at h
  | ok i =>
    simp only [hd] at h
    refine ⟨i, rfl, ⟨_, t, ?_, rfl, h⟩, exec_own h⟩
    unfold fetch
    split <;> rfl

/-! ## Infinite runs of the machine -/

/-- The fixed steps run out. -/
theorem pending_runs_out {m : Nat → State} (h : ∀ n, step (m n) = .next (m (n + 1))) : ∃ n, (m n).pending = [] := by
  have main : ∀ k n, (m n).pending.length = k → ∃ n, (m n).pending = [] := by
    intro k
    induction k with
    | zero => exact fun n hn => ⟨n, List.length_eq_zero_iff.1 hn⟩
    | succ k ih =>
      intro n hn
      obtain ⟨-, -, -, hp, -⟩ := steps_of_step (h n)
      apply ih (n + 1)
      rw [hp]
      cases hc : (m n).pending with
      | nil => simp [hc] at hn
      | cons w rest =>
        rw [fetch_of_pending hc]
        simpa [hc] using hn
  exact main _ 0 rfl

/-- From then on every step is the next one of the free order. -/
theorem draws_count_up {m : Nat → State} (h : ∀ n, step (m n) = .next (m (n + 1))) {n : Nat}
    (hn : (m n).pending = []) (j : Nat) : (m (n + j)).pending = [] ∧ (m (n + j)).drawn = (m n).drawn + j := by
  induction j with
  | zero => exact ⟨hn, rfl⟩
  | succ j ih =>
    obtain ⟨-, -, -, hp, hd⟩ := steps_of_step (h (n + j))
    rw [fetch_of_no_pending ih.1] at hp hd
    rw [← Nat.add_assoc]
    exact ⟨hp.trans ih.1, by rw [hd]; simp [ih.2]; omega⟩

/-! ## What leaves the batch -/

/-- A FRAME step taken removes the frame that heads the batch. -/
theorem takesFrame_batch {i : Instr} {s t : Fdc} (h : Fdc.Steps i s t) (hf : takesFrame i s = true) :
    t.batch = s.batch.tail := by
  obtain ⟨S, T, rfl, rfl, h⟩ := h
  have retire : ∀ now f d, (retireFrame Config.rateIntervalTicks now f d S.toFdc).batch = S.batch.tail := by
    intro now f d
    rcases retireFrame_cases Config.rateIntervalTicks now f d S.toFdc with ⟨-, e⟩ | ⟨t, w, -, -, e⟩ <;> rw [e] <;> rfl
  have row : ∀ now f d, (S.batch.head?.map Frame.bytes == some f.bytes) = true →
      (frameStepOn Config.rateIntervalTicks now f d S.toFdc).batch = S.batch.tail := by
    intro now f d hh
    have hhead : S.batch.head? = some f := by
      cases hb : S.batch with
      | nil => simp [hb] at hh
      | cons g rest =>
        have := congrArg Frame.ofBytes? (show g.bytes = f.bytes by simpa [hb] using hh)
        simpa using this
    rw [frameStepOn, if_pos hhead]
    exact retire _ _ _
  cases i
  case step now =>
    have e : T.toFdc = frameStepHead Config.rateIntervalTicks Config.scaleLut now S.toFdc := by
      cases h
      rfl
    cases hb : S.batch with
    | nil => simp [takesFrame, encode, frameEnabled, hb] at hf
    | cons f rest => rw [e, frameStepHead_cons _ _ _ _ _ _ hb, retire, hb]
  case clock | acc | gyro | angle | mag | port | press | lonlat | gpsv | unknown =>
    cases h
    exact row _ _ _ hf
  all_goals simp [takesFrame, encode] at hf

/-! ## What leaves the buffer -/

theorem bufCap_ge {c : Nat} (h : Config.bufCap = some c) : 11 ≤ c := by
  unfold Config.bufCap at h
  cases ho : Config.bufCapOver with
  | none => simp [ho] at h
  | some n =>
    have : n + 11 = c := by simpa [ho] using h
    omega

/-- The machine's sync test is the pattern on the bytes alone. -/
theorem isSync_iff_syncPairAt (buf : List Byte) (i : Nat) :
    isSync Config.syncMask buf i = true ↔ syncPairAt buf i := by
  rw [isSync_iff]
  unfold syncPairAt Config.syncMask
  constructor
  · rintro ⟨h1, h2, h3⟩
    refine ⟨?_, buf[i + 1], by simp [h1], ?_⟩
    · rw [List.getElem?_eq_getElem (by omega)]
      rw [List.getD_eq_getElem?_getD, List.getElem?_eq_getElem (by omega)] at h2
      simpa using h2
    · rw [List.getD_eq_getElem?_getD, List.getElem?_eq_getElem (by omega)] at h3
      simpa using h3
  · rintro ⟨h1, c, h2, h3⟩
    exact ⟨(List.getElem?_eq_some_iff.1 h2).1, by simp [List.getD_eq_getElem?_getD, h1],
      by simpa [List.getD_eq_getElem?_getD, h2] using h3⟩

theorem syncPairAt_append {buf : List Byte} (new : List Byte) {i : Nat} (h : syncPairAt buf i) :
    syncPairAt (buf ++ new) i := by
  obtain ⟨h1, c, h2, h3⟩ := h
  refine ⟨?_, c, ?_, h3⟩
  · rwa [List.getElem?_append_left (List.getElem?_eq_some_iff.1 h1).1]
  · rwa [List.getElem?_append_left (List.getElem?_eq_some_iff.1 h2).1]

/-- An enabled EXTRACT consumes bytes where a sync index has a whole frame after it. -/
theorem headLoss_extract_pos {s : Fdc} (he : extractEnabled s = true) {i : Nat} (hi : syncPairAt s.buf i)
    (hl : i + 11 ≤ s.buf.length) : 0 < headLoss .extract s := by
  have hi' := (isSync_iff_syncPairAt _ _).2 hi
  cases hs : scan Config.syncMask s.buf with
  | none => simp [(scan_eq_none_iff _ _).1 hs i] at hi'
  | some h =>
    have hle : h ≤ i := by
      by_contra hn
      simp [((scan_eq_some_iff _ _ _).1 hs).2 i (by omega)] at hi'
    have hc : frameCount s.buf h = (s.buf.length - h) / 11 := rfl
    have h0 : (s.buf.length - h) / 11 ≠ 0 := by omega
    simp only [headLoss, extractFrames, he, hs, hc, h0, Config.frameLen]
    simp
    omega

theorem extractFrames_buf_drop (s : Fdc) : ∃ k, (extractFrames Config.syncMask s).buf = s.buf.drop k ∧
    k ≤ s.buf.length := by
  rcases extractFrames_cases Config.syncMask s with e | ⟨-, -, h, hs, -, e⟩
  · exact ⟨0, by rw [e]; rfl, Nat.zero_le _⟩
  · refine ⟨h + 11 * frameCount s.buf h, by rw [e], ?_⟩
    have := ((isSync_iff _ _ _).1 ((scan_eq_some_iff _ _ _).1 hs).1).1
    simp only [frameCount, Config.frameLen]
    omega

theorem frameStepOn_buf (now : Nat) (f : Frame) (d : Decoded) (s : Fdc) :
    (frameStepOn Config.rateIntervalTicks now f d s).buf = s.buf := by
  rcases frameStepOn_cases Config.rateIntervalTicks now f d s with ⟨-, e⟩ | ⟨-, e⟩ <;> rw [e]
  rcases retireFrame_cases Config.rateIntervalTicks now f d s with ⟨-, e⟩ | ⟨t, w, -, -, e⟩ <;> rw [e] <;> rfl

theorem frameStepHead_buf (now : Nat) (s : Fdc) :
    (frameStepHead Config.rateIntervalTicks Config.scaleLut now s).buf = s.buf := by
  cases hb : s.batch with
  | nil => rw [frameStepHead_nil _ _ _ _ hb]
  | cons f r =>
    rw [frameStepHead_cons _ _ _ _ _ _ hb]
    rcases retireFrame_cases Config.rateIntervalTicks now f (decodePayload Config.scaleLut f) s with
      ⟨-, e⟩ | ⟨t, w, -, -, e⟩ <;> rw [e] <;> rfl

theorem memWrite_buf (off : Nat) (v : Word64) (s : Fdc) : (memWrite off v s).buf = s.buf := by
  unfold memWrite
  split <;> rfl

/-- But for RESET the buffer after a step is the one before it without its first `headLoss` bytes, and with `tailGain`
at its tail. -/
theorem steps_buf {i : Instr} {s t : Fdc} (h : Fdc.Steps i s t) (hr : i ≠ .reset) :
    t.buf = s.buf.drop (headLoss i s) ++ tailGain i s := by
  obtain ⟨S, T, rfl, rfl, h⟩ := h
  have idle : headLoss i S.toFdc = 0 → tailGain i S.toFdc = [] → T.buf = S.buf →
      T.buf = S.buf.drop (headLoss i S.toFdc) ++ tailGain i S.toFdc := by
    intro h1 h2 h3
    simp [h1, h2, h3]
  cases i
  case reset => exact absurd rfl hr
  case push b =>
    have e : T.toFdc = pushByte Config.bufCap b S.toFdc := by
      cases h
      rfl
    rcases pushByte_cases Config.bufCap b S.toFdc with ⟨h, e'⟩ | ⟨h, hc, e'⟩ | ⟨h, hc, e'⟩
    · rw [e, e']
      simp [headLoss, tailGain, h]
    · rw [e, e']
      simp [headLoss, tailGain, h, hc]
    · rw [e, e']
      simp [headLoss, tailGain, h, hc]
  case extract =>
    have e : T.toFdc = extractFrames Config.syncMask S.toFdc := by
      cases h
      rfl
    obtain ⟨k, e', hk⟩ := extractFrames_buf_drop S.toFdc
    rw [e]
    simp only [headLoss, tailGain, e', List.length_drop, List.append_nil]
    congr 1
    omega
  all_goals
    refine idle rfl rfl ?_
    cases h
    first
      | rfl
      | exact frameStepOn_buf _ _ _ _
      | exact frameStepHead_buf _ _
      | exact memWrite_buf _ _ _

theorem headLoss_le (i : Instr) (s : Fdc) : headLoss i s ≤ s.buf.length := by
  cases i <;> simp only [headLoss] <;> try omega
  split
  · rename_i h
    have := bufCap_ge (by simpa using (Bool.and_eq_true_iff.1 h).2 : Config.bufCap = some s.buf.length)
    omega
  · omega

theorem after_buf_length (i : Instr) (s : State) :
    (after i s).buf.length ≤ s.buf.length + (pushedBytes [i]).length := by
  obtain ⟨t, h⟩ := exec_next i s
  have e : after i s = t := by simp [after, h]
  rw [e]
  by_cases hr : i = .reset
  · subst hr
    cases h
    exact Nat.zero_le _
  · rw [steps_buf ⟨s, t, rfl, rfl, h⟩ hr]
    have hg : (tailGain i s.toFdc).length ≤ (pushedBytes [i]).length := by
      cases i <;> simp [tailGain, pushedBytes]
      split <;> simp
    rw [List.length_append, List.length_drop]
    omega

theorem pushedBytes_append (is js : List Instr) : pushedBytes (is ++ js) = pushedBytes is ++ pushedBytes js := by
  induction is with
  | nil => rfl
  | cons i is ih => cases i <;> simp [pushedBytes, ih]

/-- A buffer grows by no more than the bytes presented. -/
theorem afterAll_buf_length (is : List Instr) (s : State) :
    (afterAll is s).buf.length ≤ s.buf.length + (pushedBytes is).length := by
  induction is generalizing s with
  | nil => simp [afterAll, pushedBytes]
  | cons i is ih =>
    have h1 := ih (after i s)
    have h2 := after_buf_length i s
    have h3 := congrArg List.length (pushedBytes_append [i] is)
    simp only [List.singleton_append, List.length_append] at h3
    simp only [afterAll]
    omega

/-! ## What starts and stops -/

theorem reset_steps_enable {s t : Fdc} (h : Fdc.Steps .reset s t) : t.enable = false := by
  obtain ⟨S, T, rfl, rfl, h⟩ := h
  cases h
  rfl

/-- No step of the PRODUCER or the PARSER writes ENABLE. -/
theorem steps_enable {i : Instr} {s t : Fdc} (h : Fdc.Steps i s t)
    (hi : (∃ b, i = .push b) ∨ i = .extract ∨ ∃ now, i = .step now) : t.enable = s.enable := by
  obtain ⟨S, T, rfl, rfl, h⟩ := h
  rcases hi with ⟨b, rfl⟩ | rfl | ⟨now, rfl⟩
  · have e : T.toFdc = pushByte Config.bufCap b S.toFdc := by
      cases h
      rfl
    rcases pushByte_cases Config.bufCap b S.toFdc with ⟨-, e'⟩ | ⟨-, -, e'⟩ | ⟨-, -, e'⟩ <;> rw [e, e']
  · have e : T.toFdc = extractFrames Config.syncMask S.toFdc := by
      cases h
      rfl
    rcases extractFrames_cases Config.syncMask S.toFdc with e' | ⟨-, -, _, -, -, e'⟩ <;> rw [e, e']
  · have e : T.toFdc = frameStepHead Config.rateIntervalTicks Config.scaleLut now S.toFdc := by
      cases h
      rfl
    rw [e]
    cases hb : S.batch with
    | nil => rw [frameStepHead_nil _ _ _ _ hb]
    | cons f rest =>
      rw [frameStepHead_cons _ _ _ _ _ _ hb]
      rcases retireFrame_cases Config.rateIntervalTicks now f (decodePayload Config.scaleLut f) S.toFdc with
        ⟨-, e⟩ | ⟨_, _, -, -, e⟩ <;> rw [e] <;> rfl

end Sys2Proof.Machine
end

