-- ==== Sys2Proof/Tests/Slice0.lean ====
section
/-! SUPPORT. Tests of the model: ill-formed terms refused, words written out from the spec's encodings decoded, one step
per operation with the result 95_test_vectors.md gives, and for every statement with hypotheses a state and operands
that meet them. -/

namespace Sys2Proof.Machine.Tests

open Sys2Proof.Machine

/-! ## Frames of 95_test_vectors.md -/

/-- A frame of its eleven bytes. -/
def fr (b0 b1 b2 b3 b4 b5 b6 b7 b8 b9 b10 : Byte) : Frame := ⟨b0, b1, b2, b3, b4, b5, b6, b7, b8, b9, b10⟩

/-- Vector D1. -/
def fClock : Frame := fr 0x55 0x50 0x18 0x0B 0x0B 0x14 0x25 0x05 0xFA 0x00 0x0B

/-- Vector D2. -/
def fClock2 : Frame := fr 0x55 0x50 0xFF 0x00 0x00 0x19 0x3D 0x63 0xFF 0xFF 0x5B

/-- F_ACC. -/
def fAcc : Frame := fr 0x55 0x51 0x00 0x40 0x00 0xC0 0x00 0x00 0xC4 0x09 0x73

/-- Vector D4. -/
def fAcc4 : Frame := fr 0x55 0x51 0x00 0x80 0xFF 0x7F 0x01 0x00 0xFF 0xFF 0xA3

/-- Vector D6. -/
def fGyro : Frame := fr 0x55 0x52 0x01 0x00 0xFF 0xFF 0x10 0x00 0xFF 0x7F 0x34

/-- Vector D7. -/
def fGyro7 : Frame := fr 0x55 0x52 0x00 0x40 0x00 0x00 0x00 0x00 0x00 0x00 0xE7

/-- Vector D8. -/
def fAngle : Frame := fr 0x55 0x53 0x00 0x80 0x01 0x00 0x00 0x20 0xF6 0x09 0x48

/-- Vector D10. -/
def fMag : Frame := fr 0x55 0x54 0x00 0x80 0x00 0x00 0xFF 0xFF 0x06 0xFF 0x2C

/-- Vector D11. -/
def fPort : Frame := fr 0x55 0x55 0xFF 0x7F 0x00 0x80 0x34 0x12 0xFE 0xFF 0xEB

/-- Vector D12. -/
def fPress : Frame := fr 0x55 0x56 0xFF 0xFF 0xFF 0xFF 0x00 0x00 0x00 0x80 0x27

/-- Vector D14. -/
def fLonlat : Frame := fr 0x55 0x57 0x01 0x00 0x00 0x00 0xFF 0xFF 0xFF 0xFF 0xA9

/-- Vector D15. -/
def fGpsv : Frame := fr 0x55 0x58 0x00 0x80 0xFF 0xFF 0xFF 0xFF 0xAB 0xCD 0xA1

/-- Vector D16. -/
def fGpsv16 : Frame := fr 0x55 0x58 0xFF 0x7F 0x10 0x0E 0xFF 0x7F 0x00 0x00 0xC7

/-- Vector D18. -/
def fUnk : Frame := fr 0x55 0x59 0x00 0x00 0x00 0x00 0x00 0x00 0x00 0x00 0xAE

/-- Vector K3: F_ACC with one payload byte changed. -/
def fBad : Frame := fr 0x55 0x51 0x00 0x41 0x00 0xC0 0x00 0x00 0xC4 0x09 0x73

/-- Reset, with a batch. -/
def batchOf (fs : List Frame) : State := { State.reset with batch := fs }

/-- Reset and started, with bytes in the buffer. -/
def bufOf (bs : List Byte) : State := { State.reset with enable := true, buf := bs }

/-! ## Ill-formed terms are refused -/

theorem test_wf_refuses_unknown_of_known_type : (Instr.unknown 0 0x55 0x58 0 0).wf = false := by decide

theorem test_wf_accepts_unknown_of_unknown_type : (Instr.unknown 0 0x55 0x59 0 0).wf = true := by decide

theorem test_wf_refuses_reserved_at_named_offset : (Instr.rdReserved 0x20).wf = false := by decide

theorem test_wf_accepts_reserved_offset : (Instr.rdReserved 0x44).wf = true := by decide

theorem test_wf_refuses_other_write_at_ctrl : (Instr.wrOther 0 1).wf = false := by decide

theorem test_wf_refuses_short_frame : (StepWord.frame 0 [0x55, 0x50]).wf = false := by decide

theorem test_wf_refuses_narrow_host_access : (StepWord.hostRead 4 0).wf = false := by decide

theorem test_wf_refuses_misaligned_host_access : (StepWord.hostWrite 8 4 0).wf = false := by decide

theorem test_wf_refuses_host_access_outside : (StepWord.hostRead 8 0x400).wf = false := by decide

theorem test_decode_rejects_short_frame : decode (.frame 0 [0x55, 0x50]) = .error .frameLength := rfl

theorem test_decode_rejects_width : decode (.hostRead 4 0) = .error .hostWidth := rfl

theorem test_decode_rejects_alignment : decode (.hostWrite 8 4 0) = .error .hostAlignment := rfl

theorem test_decode_rejects_offset : decode (.hostRead 8 0x400) = .error .hostOffset := rfl

/-! ## Every constructor's decoding, from words written out by hand (R90-R96, R104, R108) -/

theorem test_decode_clock :
    decode (.frame 3 [0x55, 0x50, 0x18, 0x0B, 0x0B, 0x14, 0x25, 0x05, 0xFA, 0x00, 0x0B]) = .ok (.clock 3 0x55 0x18 0x0B 0x0B 0x14 0x25 0x05 0x00FA 0x0B) := rfl

theorem test_decode_acc :
    decode (.frame 3 [0x55, 0x51, 0x00, 0x80, 0xFF, 0x7F, 0x01, 0x00, 0xFF, 0xFF, 0xA3]) = .ok (.acc 3 0x55 0x8000 0x7FFF 0x0001 0xFFFF 0xA3) := rfl

theorem test_decode_gyro :
    decode (.frame 3 [0x55, 0x52, 0x01, 0x00, 0xFF, 0xFF, 0x10, 0x00, 0xFF, 0x7F, 0x34]) = .ok (.gyro 3 0x55 0x0001 0xFFFF 0x0010 0x7FFF 0x34) := rfl

theorem test_decode_angle :
    decode (.frame 3 [0x55, 0x53, 0x00, 0x80, 0x01, 0x00, 0x00, 0x20, 0xF6, 0x09, 0x48]) = .ok (.angle 3 0x55 0x8000 0x0001 0x2000 0x09F6 0x48) := rfl

theorem test_decode_mag :
    decode (.frame 3 [0x55, 0x54, 0x00, 0x80, 0x00, 0x00, 0xFF, 0xFF, 0x06, 0xFF, 0x2C]) = .ok (.mag 3 0x55 0x8000 0x0000 0xFFFF 0xFF06 0x2C) := rfl

theorem test_decode_port :
    decode (.frame 3 [0x55, 0x55, 0xFF, 0x7F, 0x00, 0x80, 0x34, 0x12, 0xFE, 0xFF, 0xEB]) = .ok (.port 3 0x55 0x7FFF 0x8000 0x1234 0xFFFE 0xEB) := rfl

theorem test_decode_press :
    decode (.frame 3 [0x55, 0x56, 0xFF, 0xFF, 0xFF, 0xFF, 0x00, 0x00, 0x00, 0x80, 0x27]) = .ok (.press 3 0x55 0xFFFFFFFF 0x80000000 0x27) := rfl

theorem test_decode_lonlat :
    decode (.frame 3 [0x55, 0x57, 0x01, 0x00, 0x00, 0x00, 0xFF, 0xFF, 0xFF, 0xFF, 0xA9]) = .ok (.lonlat 3 0x55 0x00000001 0xFFFFFFFF 0xA9) := rfl

theorem test_decode_gpsv :
    decode (.frame 3 [0x55, 0x58, 0x00, 0x80, 0xFF, 0xFF, 0xFF, 0xFF, 0xAB, 0xCD, 0xA1]) = .ok (.gpsv 3 0x55 0x8000 0xFFFF 0xFFFF 0xCDAB 0xA1) := rfl

theorem test_decode_unknown :
    decode (.frame 3 [0x55, 0x59, 0x00, 0x00, 0x00, 0x00, 0x00, 0x00, 0x00, 0x00, 0xAE]) = .ok (.unknown 3 0x55 0x59 0 0xAE) := rfl

theorem test_decode_rdCtrl : decode (.hostRead 8 0x000) = .ok .rdCtrl := rfl

theorem test_decode_rdStatus : decode (.hostRead 8 0x008) = .ok .rdStatus := rfl

theorem test_decode_rdCntNoise : decode (.hostRead 8 0x010) = .ok .rdCntNoise := rfl

theorem test_decode_rdCntOvf : decode (.hostRead 8 0x018) = .ok .rdCntOvf := rfl

theorem test_decode_rdCntFrames : decode (.hostRead 8 0x020) = .ok .rdCntFrames := rfl

theorem test_decode_rdCntCksum : decode (.hostRead 8 0x028) = .ok .rdCntCksum := rfl

theorem test_decode_rdCntUnknown : decode (.hostRead 8 0x030) = .ok .rdCntUnknown := rfl

theorem test_decode_rdCntApplied : decode (.hostRead 8 0x038) = .ok .rdCntApplied := rfl

theorem test_decode_rdCntSuppressed : decode (.hostRead 8 0x040) = .ok .rdCntSuppressed := rfl

theorem test_decode_rdSnapAcceleration0 : decode (.hostRead 8 0x100) = .ok .rdSnapAcceleration0 := rfl

theorem test_decode_rdSnapAcceleration1 : decode (.hostRead 8 0x108) = .ok .rdSnapAcceleration1 := rfl

theorem test_decode_rdSnapAcceleration2 : decode (.hostRead 8 0x110) = .ok .rdSnapAcceleration2 := rfl

theorem test_decode_rdSnapAcceleration3 : decode (.hostRead 8 0x118) = .ok .rdSnapAcceleration3 := rfl

theorem test_decode_rdSnapAngularVelocity0 : decode (.hostRead 8 0x120) = .ok .rdSnapAngularVelocity0 := rfl

theorem test_decode_rdSnapAngularVelocity1 : decode (.hostRead 8 0x128) = .ok .rdSnapAngularVelocity1 := rfl

theorem test_decode_rdSnapAngularVelocity2 : decode (.hostRead 8 0x130) = .ok .rdSnapAngularVelocity2 := rfl

theorem test_decode_rdSnapAngularVelocity3 : decode (.hostRead 8 0x138) = .ok .rdSnapAngularVelocity3 := rfl

theorem test_decode_rdSnapAngle0 : decode (.hostRead 8 0x140) = .ok .rdSnapAngle0 := rfl

theorem test_decode_rdSnapAngle1 : decode (.hostRead 8 0x148) = .ok .rdSnapAngle1 := rfl

theorem test_decode_rdSnapAngle2 : decode (.hostRead 8 0x150) = .ok .rdSnapAngle2 := rfl

theorem test_decode_rdSnapAngle3 : decode (.hostRead 8 0x158) = .ok .rdSnapAngle3 := rfl

theorem test_decode_rdSnapMagneticField0 : decode (.hostRead 8 0x160) = .ok .rdSnapMagneticField0 := rfl

theorem test_decode_rdSnapMagneticField1 : decode (.hostRead 8 0x168) = .ok .rdSnapMagneticField1 := rfl

theorem test_decode_rdSnapMagneticField2 : decode (.hostRead 8 0x170) = .ok .rdSnapMagneticField2 := rfl

theorem test_decode_rdSnapMagneticField3 : decode (.hostRead 8 0x178) = .ok .rdSnapMagneticField3 := rfl

theorem test_decode_rdSnapDigitalPort0 : decode (.hostRead 8 0x180) = .ok .rdSnapDigitalPort0 := rfl

theorem test_decode_rdSnapDigitalPort1 : decode (.hostRead 8 0x188) = .ok .rdSnapDigitalPort1 := rfl

theorem test_decode_rdSnapDigitalPort2 : decode (.hostRead 8 0x190) = .ok .rdSnapDigitalPort2 := rfl

theorem test_decode_rdSnapDigitalPort3 : decode (.hostRead 8 0x198) = .ok .rdSnapDigitalPort3 := rfl

theorem test_decode_rdSnapTemperature : decode (.hostRead 8 0x1A0) = .ok .rdSnapTemperature := rfl

theorem test_decode_rdSnapPressure : decode (.hostRead 8 0x1A8) = .ok .rdSnapPressure := rfl

theorem test_decode_rdSnapAltitude : decode (.hostRead 8 0x1B0) = .ok .rdSnapAltitude := rfl

theorem test_decode_rdSnapGroundVelocity : decode (.hostRead 8 0x1B8) = .ok .rdSnapGroundVelocity := rfl

theorem test_decode_rdSnapGpsYaw : decode (.hostRead 8 0x1C0) = .ok .rdSnapGpsYaw := rfl

theorem test_decode_rdSnapGpsHeight : decode (.hostRead 8 0x1C8) = .ok .rdSnapGpsHeight := rfl

theorem test_decode_rdSnapLongitude : decode (.hostRead 8 0x1D0) = .ok .rdSnapLongitude := rfl

theorem test_decode_rdSnapLatitude : decode (.hostRead 8 0x1D8) = .ok .rdSnapLatitude := rfl

theorem test_decode_rdSnapDeviceClock0 : decode (.hostRead 8 0x1E0) = .ok .rdSnapDeviceClock0 := rfl

theorem test_decode_rdSnapDeviceClock1 : decode (.hostRead 8 0x1E8) = .ok .rdSnapDeviceClock1 := rfl

theorem test_decode_rdSnapDeviceClock2 : decode (.hostRead 8 0x1F0) = .ok .rdSnapDeviceClock2 := rfl

theorem test_decode_rdSnapDeviceClock3 : decode (.hostRead 8 0x1F8) = .ok .rdSnapDeviceClock3 := rfl

theorem test_decode_rdSnapDeviceClock4 : decode (.hostRead 8 0x200) = .ok .rdSnapDeviceClock4 := rfl

theorem test_decode_rdSnapDeviceClock5 : decode (.hostRead 8 0x208) = .ok .rdSnapDeviceClock5 := rfl

theorem test_decode_rdSnapDeviceClock6 : decode (.hostRead 8 0x210) = .ok .rdSnapDeviceClock6 := rfl

theorem test_decode_rdSnapChValid : decode (.hostRead 8 0x218) = .ok .rdSnapChValid := rfl

theorem test_decode_rdReserved :
    decode (.hostRead 8 0x048) = .ok (.rdReserved 9) ∧ decode (.hostRead 8 0x3F8) = .ok (.rdReserved 127) := ⟨rfl, rfl⟩

theorem test_decode_wrCtrl : decode (.hostWrite 8 0x000 7) = .ok (.wrCtrl 7) := rfl

theorem test_decode_wrOther :
    decode (.hostWrite 8 0x008 7) = .ok (.wrOther 1 7) ∧ decode (.hostWrite 8 0x3F8 7) = .ok (.wrOther 127 7) :=
  ⟨rfl, rfl⟩

theorem test_decode_agent_steps :
    decode (.push 0x5A) = .ok (.push 0x5A) ∧ decode .extract = .ok .extract ∧
    decode (.frameStep 500) = .ok (.step 500) ∧ decode .reset = .ok .reset := ⟨rfl, rfl, rfl, rfl⟩

theorem test_table_word_clock : decodeTableWord 16 0x5000 = some (.clock 0 0 0 0 0 0 0 0 0 0) := by decide

theorem test_table_word_acc88 :
    decodeTableWord 88 0x7309C40000C00040005155 = some (.acc 0 0x55 0x4000 0xC000 0 0x09C4 0x73) := by decide

theorem test_table_word_read : decodeTableWord 16 0x1A0 = some .rdSnapTemperature := by decide

theorem test_table_word_push : decodeTableWord 8 0xA6 = some (.push 0xA6) := by decide

/-! ## One step each, with the results of 95_test_vectors.md -/

theorem test_clock : (after (.step 0) (batchOf [fClock])).sensor.deviceClock = ⟨2024, 11, 11, 20, 37, 5, 250⟩ := by decide

theorem test_clock_unsigned_bytes_signed_ms : (after (.step 0) (batchOf [fClock2])).sensor.deviceClock = ⟨2255, 0, 0, 25, 61, 99, -1⟩ := by decide

theorem test_acc : (after (.step 0) (batchOf [fAcc4])).sensor.acceleration = ⟨0xC030000000000000, 0x402FFFC000000000, 0x3F40000000000000, 0⟩ := by decide

theorem test_acc_temperature : (after (.step 0) (batchOf [fAcc4])).sensor.temperature = 0xBF847AE147AE147B := by decide

theorem test_gyro : (after (.step 0) (batchOf [fGyro])).sensor.angularVelocity = ⟨0x3FAF400000000000, 0xBFAF400000000000, 0x3FEF400000000000, 0⟩ := by decide

theorem test_gyro_temperature : (after (.step 0) (batchOf [fGyro])).sensor.temperature = 0x40747AB851EB851F := by decide

theorem test_angle : (after (.step 0) (batchOf [fAngle])).sensor.angle = ⟨0xC066800000000000, 0x3F76800000000000, 0x4046800000000000, 0⟩ := by decide

theorem test_angle_temperature : (after (.step 0) (batchOf [fAngle])).sensor.temperature = 0x4039800000000000 := by decide

theorem test_mag : (after (.step 0) (batchOf [fMag])).sensor.magneticField = ⟨-32768, 0, -1, 0⟩ := by decide

theorem test_mag_temperature : (after (.step 0) (batchOf [fMag])).sensor.temperature = 0xC004000000000000 := by decide

theorem test_port : (after (.step 0) (batchOf [fPort])).sensor.digitalPort = ⟨32767, -32768, 4660, -2⟩ := by decide

theorem test_press : (after (.step 0) (batchOf [fPress])).sensor.pressure = -1 := by decide

theorem test_press_altitude : (after (.step 0) (batchOf [fPress])).sensor.altitude = 0xC1747AE147AE147B := by decide

theorem test_lonlat : (after (.step 0) (batchOf [fLonlat])).sensor.longitude = 1 ∧
    (after (.step 0) (batchOf [fLonlat])).sensor.latitude = -1 := by decide

theorem test_gpsv : (after (.step 0) (batchOf [fGpsv])).sensor.gpsHeight = 0xC0A999999999999A ∧
    (after (.step 0) (batchOf [fGpsv])).sensor.gpsYaw = 0xBFB999999999999A ∧
    (after (.step 0) (batchOf [fGpsv])).sensor.groundVelocity = 0xBF50624DD2F1A9FC := by decide

theorem test_gpsv_positive : (after (.step 0) (batchOf [fGpsv16])).sensor.gpsHeight = 0x40A9996666666666 ∧
    (after (.step 0) (batchOf [fGpsv16])).sensor.gpsYaw = 0x4076800000000000 ∧
    (after (.step 0) (batchOf [fGpsv16])).sensor.groundVelocity = 0x4040622D0E560419 := by decide

theorem test_unknown : (after (.step 0) (batchOf [fUnk])).lastOutcome = 4 ∧
    (after (.step 0) (batchOf [fUnk])).cnt.unknown = 1 := by decide

/-- Vector O1: the checksum is tested before the type. -/
theorem test_checksum_before_type :
    (after (.step 0) (batchOf [fr 0x55 0x59 0 0 0 0 0 0 0 0 0xAF])).lastOutcome = 3 := by decide

/-- Vector 1.2: the corrupted frame is dropped and S is unchanged. -/
theorem test_corrupted_frame_dropped : (after (.step 0) (batchOf [fBad, fAcc])).sensor = SensorState.reset ∧
    (after (.step 0) (batchOf [fBad, fAcc])).batch = [fAcc] := by decide

/-- The worked example of R195: the gate, the valid bit, the outcome and the counter. -/
theorem test_step_worked_example : (after (.step 500) (batchOf [fAcc])).gate.x0 = ⟨500, true⟩ ∧
    (after (.step 500) (batchOf [fAcc])).chValid = 2 ∧ (after (.step 500) (batchOf [fAcc])).lastOutcome = 1 ∧
    (after (.step 500) (batchOf [fAcc])).cnt.applied = 1 := by decide

/-- The gate's worked example (R192), with the default interval. -/
theorem test_gate : gateAccepts 100 ⟨1000, true⟩ 1050 = false ∧ gateAccepts 100 ⟨1000, true⟩ 1100 = true ∧
    gateAccepts 100 ⟨1000, true⟩ 900 = false := by decide

/-- Vectors U1 and U2. -/
theorem test_push : (pushByte none 0x55 (bufOf []).toFdc).buf = [0x55] ∧
    (pushByte none 0x55 { Fdc.reset with buf := [1] }).buf = [1] := by decide

/-- Vector U3: the overflow. -/
theorem test_push_overflow :
    pushByte (some 11) 0xA6 (bufOf [0x00, 0x55, 0x51, 0, 0, 0, 0, 0, 0, 0, 0]).toFdc =
      { (bufOf [0x55, 0x51, 0, 0, 0, 0, 0, 0, 0, 0, 0xA6]).toFdc with
        cnt := { Counters.clear with ovf := 1 }, sticky := { Sticky.clear with ovf := true } } := by decide

/-- Vector E8, the worked example of R127. -/
theorem test_extract :
    extractFrames 0x50 (bufOf ([0x00, 0x13] ++ fAcc.bytes ++ [0x55])).toFdc =
      { (bufOf [0x55]).toFdc with
        batch := [fAcc], cnt := { Counters.clear with noise := 2, frames := 1 }
        sticky := { Sticky.clear with noise := true } } := by decide

/-- Vector E4: the noise is kept where no whole frame follows. -/
theorem test_extract_keeps_noise :
    extractFrames 0x50 (bufOf ([1, 2, 3] ++ fAcc.bytes.take 10)).toFdc = (bufOf ([1, 2, 3] ++ fAcc.bytes.take 10)).toFdc :=
  by decide

/-- Vectors 2.1 of the sync test: 55 70 under both masks, 55 60 under neither. -/
theorem test_sync : isSync 0x50 [0x55, 0x70] 0 = true ∧ isSync 0xF0 [0x55, 0x70] 0 = false ∧
    isSync 0x50 [0x55, 0x60] 0 = false ∧ isSync 0x50 [0x55] 0 = false := by decide

/-- The worked example of R226. -/
theorem test_status_word :
    statusWord { Fdc.reset with
      buf := [0], chValid := 2, lastOutcome := 1, sticky := ⟨false, true, false, false⟩ } = 0x0000000100020104 := by
  decide

/-- Vector H2: bits 63:4 are ignored. -/
theorem test_wr_ctrl : exec (.wrCtrl 0xFFFFFFFFFFFFFFF1) State.reset = .next { State.reset with enable := true } := rfl

/-- Vectors H5 and H9: SNAP, then a read of the bank. -/
theorem test_snapshot_read :
    (after .rdSnapMagneticField0 (afterAll [.step 0, .wrCtrl 3] (batchOf [fMag]))).hRdata = 0xFFFFFFFFFFFF8000 ∧
    (after .rdSnapChValid (afterAll [.step 0, .wrCtrl 3] (batchOf [fMag]))).hRdata = 0x10 := by decide

/-- Vector X2: RESET abandons a batch. -/
theorem test_reset : exec .reset (batchOf [fAcc, fClock]) = .next State.reset := rfl

/-- A staged table word is what the next step runs. -/
theorem test_withFetchWord_read :
    step (State.reset.withFetchWord 16 0x008) = exec .rdStatus State.reset := rfl

/-- Rule R102's example of FRAME.ACC. -/
theorem test_asm_acc : asmAcc 16384 (-16384) 0 2500 = pushes fAcc.bytes := by decide

/-! ## Witnesses: for every statement with hypotheses, a state and operands that meet them -/

/-- DecodeUndoesEncode, at an instruction whose well-formedness is a check. -/
theorem witness_DecodeUndoesEncode : (Instr.unknown 9 0x55 0x59 1 0).wf = true := by decide

theorem witness_EncodeUndoesDecode : decode (.hostRead 8 0x3F8) = .ok (.rdReserved 127) := rfl

/-- One state for each clause, at the boundary. -/
theorem witness_HostAccessRefusedUnlessDefined :
    ({ State.reset with pending := [.hostRead 7 0] }.pending = .hostRead 7 0 :: [] ∧ (7 : Nat) ≠ 8) ∧
    ({ State.reset with pending := [.hostRead 8 0x3F9] }.pending = .hostRead 8 0x3F9 :: [] ∧ 0x3F9 % 8 ≠ 0) ∧
    ({ State.reset with pending := [.hostWrite 8 0x400 1] }.pending = .hostWrite 8 0x400 1 :: [] ∧
      0x400 % 8 = 0 ∧ 0x400 ≤ 0x400) ∧
    ({ State.reset with pending := [.hostRead 8 0x3F8] }.pending = .hostRead 8 0x3F8 :: [] ∧
      0x3F8 % 8 = 0 ∧ 0x3F8 < 0x400) := by decide

theorem witness_StepRunsDecodedInstruction :
    ({ State.reset with pending := [.extract] }.pending = .extract :: [] ∧ decode .extract = .ok .extract) ∧
    State.reset.pending = [] := ⟨⟨rfl, rfl⟩, rfl⟩

theorem witness_StepCompletesExactlyWhenDefined :
    { State.reset with pending := [.reset] }.pending = .reset :: [] := rfl

/-- The buffer of vector E8: a sync index 2, none before it, and exactly a whole frame and one byte from there. -/
theorem witness_ExtractFollowsItsRule :
    let s := bufOf ([0x00, 0x13] ++ fAcc.bytes ++ [0x55])
    s.enable = true ∧ s.batch = [] ∧ syncPairAt s.buf 2 ∧ (∀ j, j < 2 → ¬ syncPairAt s.buf j) ∧
      2 + 11 ≤ s.buf.length := by
  refine ⟨rfl, rfl, ⟨rfl, 0x51, rfl, by decide⟩, ?_, by decide⟩
  intro j hj h
  have h1 := h.1
  interval_cases j <;> exact absurd h1 (by decide)

/-- The clauses of no change: no sync index at all, and a least one with no whole frame from there. -/
theorem witness_ExtractFollowsItsRule_noChange :
    (bufOf []).enable = true ∧ (bufOf []).batch = [] ∧
    (∀ j, ¬ syncPairAt (bufOf []).buf j) ∧
    (syncPairAt (bufOf (fAcc.bytes.take 10)).buf 0 ∧ (bufOf (fAcc.bytes.take 10)).buf.length < 0 + 11) := by
  refine ⟨rfl, rfl, fun j h => ?_, ⟨rfl, 0x51, rfl, by decide⟩, by decide⟩
  have h1 := h.1
  simp [bufOf] at h1

theorem witness_FailedExtractIsIdempotent :
    (bufOf [0x55]).enable = true ∧ (bufOf [0x55]).batch = [] ∧ exec .extract (bufOf [0x55]) = .next (bufOf [0x55]) ∧
      (∀ i ∈ [Instr.wrCtrl 2, .extract], i ≠ .reset ∧ ∀ b, i ≠ .push b) := by
  refine ⟨rfl, rfl, rfl, ?_⟩
  simp

theorem witness_BytesLeaveOnlyAtHead :
    exec (.push 1) State.reset = .next State.reset ∧
    exec .reset (bufOf [1]) = .next State.reset ∧ State.reset.buf ≠ (bufOf [1]).buf := ⟨rfl, rfl, by decide⟩

theorem witness_FrameStepFollowsItsRule : (batchOf [fAcc]).batch = fAcc :: [] := rfl

theorem witness_ClockFrameApplied : (batchOf [fClock]).batch = clockFrame 0x55 0x18 0x0B 0x0B 0x14 0x25 0x05 0x00FA 0x0B :: [] ∧
    valid (clockFrame 0x55 0x18 0x0B 0x0B 0x14 0x25 0x05 0x00FA 0x0B) = true := by decide

theorem witness_AccFrameApplied : (batchOf [fAcc4]).batch = halvesFrame 0x55 0x51 0x8000 0x7FFF 0x0001 0xFFFF 0xA3 :: [] ∧
    valid (halvesFrame 0x55 0x51 0x8000 0x7FFF 0x0001 0xFFFF 0xA3) = true ∧ gateOpen (batchOf [fAcc4]).gate.x0 0 :=
  ⟨rfl, by decide, .inl rfl⟩

theorem witness_GyroFrameApplied : (batchOf [fGyro]).batch = halvesFrame 0x55 0x52 0x0001 0xFFFF 0x0010 0x7FFF 0x34 :: [] ∧
    valid (halvesFrame 0x55 0x52 0x0001 0xFFFF 0x0010 0x7FFF 0x34) = true ∧ gateOpen (batchOf [fGyro]).gate.x1 0 :=
  ⟨rfl, by decide, .inl rfl⟩

theorem witness_AngleFrameApplied : (batchOf [fAngle]).batch = halvesFrame 0x55 0x53 0x8000 0x0001 0x2000 0x09F6 0x48 :: [] ∧
    valid (halvesFrame 0x55 0x53 0x8000 0x0001 0x2000 0x09F6 0x48) = true ∧ gateOpen (batchOf [fAngle]).gate.x2 0 :=
  ⟨rfl, by decide, .inl rfl⟩

theorem witness_MagFrameApplied : (batchOf [fMag]).batch = halvesFrame 0x55 0x54 0x8000 0x0000 0xFFFF 0xFF06 0x2C :: [] ∧
    valid (halvesFrame 0x55 0x54 0x8000 0x0000 0xFFFF 0xFF06 0x2C) = true ∧ gateOpen (batchOf [fMag]).gate.x3 0 :=
  ⟨rfl, by decide, .inl rfl⟩

theorem witness_PortFrameApplied : (batchOf [fPort]).batch = halvesFrame 0x55 0x55 0x7FFF 0x8000 0x1234 0xFFFE 0xEB :: [] ∧
    valid (halvesFrame 0x55 0x55 0x7FFF 0x8000 0x1234 0xFFFE 0xEB) = true := by decide

theorem witness_PressFrameApplied : (batchOf [fPress]).batch = wordsFrame 0x55 0x56 0xFFFFFFFF 0x80000000 0x27 :: [] ∧
    valid (wordsFrame 0x55 0x56 0xFFFFFFFF 0x80000000 0x27) = true := by decide

theorem witness_LonlatFrameApplied : (batchOf [fLonlat]).batch = wordsFrame 0x55 0x57 0x00000001 0xFFFFFFFF 0xA9 :: [] ∧
    valid (wordsFrame 0x55 0x57 0x00000001 0xFFFFFFFF 0xA9) = true := by decide

theorem witness_GpsvFrameApplied : (batchOf [fGpsv]).batch = halvesFrame 0x55 0x58 0x8000 0xFFFF 0xFFFF 0xCDAB 0xA1 :: [] ∧
    valid (halvesFrame 0x55 0x58 0x8000 0xFFFF 0xFFFF 0xCDAB 0xA1) = true := by decide

theorem witness_UnknownTypeDropped : (0x58 < (0x59 : Byte).toNat) ∧
    (batchOf [fUnk]).batch = unknownFrame 0x55 0x59 0 0xAE :: [] ∧ valid (unknownFrame 0x55 0x59 0 0xAE) = true := by
  decide

theorem witness_UnknownTypeDropped_below : ((0x4F : Byte).toNat < 0x50) ∧
    valid (unknownFrame 0x55 0x4F 0 0xA4) = true := by decide

theorem witness_ChecksumFailureDropped : (batchOf [fBad]).batch = fBad :: [] ∧ valid fBad = false := by decide

/-- A time before the last accepted one: the difference is negative. -/
theorem witness_EarlyGatedFrameSuppressed :
    let s : State := { batchOf [fAcc] with gate := ⟨⟨5, true⟩, ⟨0, false⟩, ⟨0, false⟩, ⟨0, false⟩⟩ }
    s.batch = fAcc :: [] ∧ valid fAcc = true ∧ channelOf fAcc.typ = some .acc ∧ gateIndex .acc = some 0 ∧
      (s.gate.get 0).seen = true ∧ ((4 : Nat) : Int) - (s.gate.get 0).last < Config.rateIntervalTicks := by
  refine ⟨rfl, by decide, rfl, rfl, rfl, ?_⟩
  have := rateIntervalTicks_pos
  show (4 : Int) - 5 < _
  omega

theorem witness_DisabledStepsDoNotHappen : State.reset.batch = [] ∧ (batchOf [fAcc]).batch.head? ≠ some fGyro ∧
    State.reset.enable = false ∧ { batchOf [fAcc] with enable := true }.batch ≠ [] := by decide

theorem witness_StepAgreesWithFrameRow : (batchOf [fGpsv, fAcc]).batch = fGpsv :: [fAcc] := rfl

theorem witness_AppliedFrameWritesItsWriteSet :
    (batchOf [fAcc]).batch = fAcc :: [] ∧ valid fAcc = true ∧
      decodePayload Config.scaleLut fAcc = .known .acc (accWrites Config.scaleLut 0x4000 0xC000 0 0x09C4) ∧
      ∀ g, gateIndex .acc = some g → gateOpen ((batchOf [fAcc]).gate.get g) 0 := by
  refine ⟨rfl, by decide, by decide, fun g hg => .inl ?_⟩
  cases hg
  rfl

/-- Two types that share the temperature, and no other field. -/
theorem witness_AppliedFrameWritesItsWriteSet_shared :
    decodePayload Config.scaleLut fMag = .known .mag (magWrites Config.scaleLut 0x8000 0 0xFFFF 0xFF06) ∧
      Channel.acc ≠ .mag ∧
      SensorField.temperature ∈ (accWrites Config.scaleLut 0x4000 0xC000 0 0x09C4).map FieldWrite.field ∧
      SensorField.temperature ∈ (magWrites Config.scaleLut 0x8000 0 0xFFFF 0xFF06).map FieldWrite.field := by decide

theorem witness_OnlyAppliedFramesChangeSensorAndGate :
    exec (.step 0) (batchOf [fAcc]) = .next (after (.step 0) (batchOf [fAcc])) ∧
      (after (.step 0) (batchOf [fAcc])).sensor ≠ (batchOf [fAcc]).sensor := ⟨rfl, by decide⟩

theorem witness_FourthElementsNeverWritten :
    exec (.step 0) (batchOf [fAcc]) = .next (after (.step 0) (batchOf [fAcc])) := rfl

theorem witness_TemperatureComesFromMotionFrames :
    (batchOf [fMag]).batch = fMag :: [] ∧ exec (.step 0) (batchOf [fMag]) = .next (after (.step 0) (batchOf [fMag])) ∧
      (after (.step 0) (batchOf [fMag])).sensor.temperature ≠ (batchOf [fMag]).sensor.temperature :=
  ⟨rfl, rfl, by decide⟩

theorem witness_OneGatedFramePerBatchAtOneTime :
    (batchOf [fAcc, fClock, fAcc4]).batch = [] ++ fAcc :: ([fClock] ++ fAcc4 :: []) ∧
      channelOf fAcc.typ = some .acc ∧ channelOf fAcc4.typ = some .acc ∧ gateIndex .acc = some 0 ∧
      valid fAcc4 = true ∧
      (afterAll (List.replicate (([] : List Frame).length + 1) (.step 7)) (batchOf [fAcc, fClock, fAcc4])).lastOutcome = 1 := by
  decide

/-- The first accepted at 0; the second at 0 is too early, and at exactly the interval it passes. -/
theorem witness_SecondAccelerationFrameNeedsTheInterval :
    (batchOf [fAcc, fAcc4]).batch = fAcc :: fAcc4 :: [] ∧ fAcc.typ = 0x51 ∧ fAcc4.typ = 0x51 ∧ valid fAcc = true ∧
      valid fAcc4 = true ∧ gateOpen (batchOf [fAcc, fAcc4]).gate.x0 0 ∧
      (((0 : Nat) : Int) - (0 : Nat) < Config.rateIntervalTicks) ∧
      ((Config.rateIntervalTicks : Int) ≤ (Config.rateIntervalTicks : Int) - (0 : Nat)) := by
  refine ⟨rfl, rfl, rfl, by decide, by decide, .inl rfl, ?_, by simp⟩
  have := rateIntervalTicks_pos
  omega

/-- Each clause: one byte changed, two changes that cancel, two bytes swapped. -/
theorem witness_ChecksumDetectsOneByteChanges :
    (valid fAcc = true ∧ fAcc.bytes[3]? ≠ fBad.bytes[3]? ∧ ∀ j, j ≠ 3 → fAcc.bytes[j]? = fBad.bytes[j]?) ∧
    (fAcc.bytes.take 10).Perm ({ fAcc with p8 := fAcc.p9, p9 := fAcc.p8 }.bytes.take 10) := by
  refine ⟨⟨by decide, by decide, fun j hj => ?_⟩, by decide⟩
  rcases Nat.lt_or_ge j 11 with h | h
  · interval_cases j <;> first | rfl | exact absurd rfl hj
  · simp [Frame.bytes, h]

theorem witness_RoundingIsNearestTiesToEven :
    0 < (10 : Nat) ∧ b64Finite (rne64 12 10) ∧ b64Finite (0x3FF3333333333334 : Binary64) := by
  refine ⟨by decide, ?_, ?_⟩ <;> unfold b64Finite <;> decide

theorem witness_ReservedReadsZeroAndIgnoresWrites :
    0x048 ≤ offsetOf 9 ∧ offsetOf 31 ≤ 0x0F8 ∧ 0x220 ≤ offsetOf 68 ∧ offsetOf 127 ≤ 0x3F8 := by decide

theorem witness_ReservedReads_completes :
    exec .rdCtrl State.reset = .next State.reset ∧ exec .rdStatus State.reset = .next State.reset := ⟨rfl, rfl⟩

theorem witness_HostReadHasNoSideEffect :
    0x3F8 % 8 = 0 ∧ 0x3F8 < 0x400 ∧
      { State.reset with pending := [.hostRead 8 0x3F8] }.pending = .hostRead 8 0x3F8 :: [] := by decide

theorem witness_SnapshotHoldsUntilNextSnapOrReset :
    (2 : Word64).getLsbD 1 = true ∧
      ∀ i ∈ [Instr.step 0, .wrCtrl 0xD], i.wf = true ∧ i ≠ .reset ∧ ∀ u, i = .wrCtrl u → u.getLsbD 1 = false := by
  refine ⟨by decide, ?_⟩
  intro i hi
  simp only [List.mem_cons, List.not_mem_nil, or_false] at hi
  rcases hi with rfl | rfl
  · exact ⟨rfl, by decide, by simp⟩
  · refine ⟨rfl, by decide, ?_⟩
    intro u hu
    cases hu
    decide

theorem witness_OtherWritesChangeNothing : (1 : BitVec 7) ≠ 0 := by decide

theorem witness_WindowIsLittleEndian : 0x3F8 % 8 = 0 ∧ 7 < 8 := by decide

theorem witness_EveryRegisterReadsZeroAfterReset : 0x218 % 8 = 0 ∧ 0x218 < 0x400 := by decide

theorem witness_StoppedParserDrainsItsBatch :
    (batchOf [fAcc, fGyro]).enable = false ∧ [10, 20].length = (batchOf [fAcc, fGyro]).batch.length := ⟨rfl, rfl⟩

theorem witness_QuiescentStateIsInert : State.reset.Quiescent ∧ isFrameStep (.step 0) = true := ⟨⟨rfl, rfl⟩, rfl⟩

/-- Frame F_ACC cut in two, an EXTRACT between the parts. -/
theorem witness_SplitStreamGivesSameFrames :
    let is := (fAcc.bytes.take 5).map Instr.push ++ [.extract] ++ (fAcc.bytes.drop 5).map Instr.push
    (bufOf []).enable = true ∧ (bufOf []).batch = [] ∧ (bufOf []).buf = [] ∧
      (∀ f ∈ [fAcc], f.sync = 0x55 ∧ f.typ &&& 0x50 = 0x50) ∧
      (∀ j, j < ([] : List Byte).length → ¬ syncPairAt ([] ++ [fAcc].flatMap Frame.bytes) j) ∧
      (∀ done b todo, is = done ++ .push b :: todo → Config.bufCap ≠ some (afterAll done (bufOf [])).buf.length) ∧
      (∀ i ∈ is, (∃ b, i = .push b) ∨ i = .extract ∨ (∃ now, i = .step now) ∨ isHostRead i = true) ∧
      pushedBytes is = [] ++ [fAcc].flatMap Frame.bytes ∧ [fAcc].length ≤ [0].length := by
  refine ⟨rfl, rfl, rfl, by decide, fun j hj => absurd hj (by simp), ?_, ?_, by decide, by decide⟩
  · intro done b todo h hc
    have h1 := congrArg (fun l => (pushedBytes l).length) h
    rw [pushedBytes_append done, List.length_append] at h1
    have h2 : 11 = (pushedBytes done).length + (pushedBytes todo).length.succ := h1
    have h3 := afterAll_buf_length done (bufOf [])
    have h4 := bufCap_ge hc
    have h5 : (bufOf []).buf.length = 0 := rfl
    omega
  · intro i hi
    simp only [List.mem_append, List.mem_map, List.mem_singleton] at hi
    rcases hi with (⟨b, -, rfl⟩ | rfl) | ⟨b, -, rfl⟩
    · exact .inl ⟨b, rfl⟩
    · exact .inr (.inl rfl)
    · exact .inl ⟨b, rfl⟩

/-! ### Infinite runs -/

/-- The states of the machine from reset on. -/
def machineRun : Nat → State
  | 0 => State.reset
  | n + 1 => match step (machineRun n) with
    | .next t => t
    | _ => machineRun n

theorem machineRun_pending (n : Nat) : (machineRun n).pending = [] ∧ step (machineRun n) = .next (machineRun (n + 1)) := by
  have go : ∀ s : State, s.pending = [] → ∃ t, step s = .next t ∧ t.pending = [] := by
    intro s hs
    obtain ⟨i, hi, -⟩ := decode_environment_ok s.drawn
    obtain ⟨t, ht⟩ := exec_next i { s with drawn := s.drawn + 1 }
    exact ⟨t, by simp [step, fetch_of_no_pending hs, hi, ht], (exec_own ht).1.trans hs⟩
  induction n with
  | zero =>
    obtain ⟨t, ht, -⟩ := go State.reset rfl
    exact ⟨rfl, by simp [machineRun, ht]⟩
  | succ n ih =>
    obtain ⟨t, ht, hp⟩ := go _ ih.1
    have e : machineRun (n + 1) = t := by simp [machineRun, ht]
    obtain ⟨u, hu, -⟩ := go t hp
    refine ⟨e ▸ hp, ?_⟩
    have e2 : machineRun (n + 1 + 1) = u := by
      show (match step (machineRun (n + 1)) with | .next t => t | _ => machineRun (n + 1)) = u
      rw [e, hu]
    rw [e2, e, hu]

/-- PUSH, EXTRACT and STEP by turns. -/
def byTurns (n : Nat) : Instr := if n % 3 = 0 then .push 0 else if n % 3 = 1 then .extract else .step 0

/-- The run of `byTurns` from a started FDC with a sync pattern in its buffer. -/
def turnsRun : Nat → State
  | 0 => bufOf [0x55, 0x51]
  | n + 1 => after (byTurns n) (turnsRun n)

theorem turnsRun_isRun : IsRun byTurns (fun n => (turnsRun n).toFdc) := by
  intro n
  obtain ⟨t, ht⟩ := exec_next (byTurns n) (turnsRun n)
  exact ⟨turnsRun n, t, rfl, by simp [turnsRun, after, ht], ht⟩

/-- Clauses (a) and (b): the machine runs on from reset for ever, and a batch in progress meets a PUSH. -/
theorem witness_FairParserConsumesSyncIndices_machine :
    (∀ n, step (machineRun n) = .next (machineRun (n + 1))) ∧
    (Fdc.Steps (.push 0) (batchOf [fAcc]).toFdc (batchOf [fAcc]).toFdc ∧ (batchOf [fAcc]).batch ≠ [] ∧
      takesFrame (.push 0) (batchOf [fAcc]).toFdc = false ∧ Instr.push 0 ≠ .reset) :=
  ⟨fun n => (machineRun_pending n).2, ⟨batchOf [fAcc], _, rfl, rfl, rfl⟩, by decide, rfl, by decide⟩

/-- Clauses (c) and (d): a fair run that stays started, with PUSH again and again and a sync index at 0; and an empty
buffer. -/
theorem witness_FairParserConsumesSyncIndices :
    IsRun byTurns (fun n => (turnsRun n).toFdc) ∧ WeaklyFair byTurns (fun n => (turnsRun n).toFdc) ∧
      (∀ m, 0 ≤ m → (turnsRun m).enable = true) ∧ (∀ k, ∃ m, k ≤ m ∧ ∃ b, byTurns m = .push b) ∧
      syncPairAt (turnsRun 0).buf 0 ∧ Fdc.reset.buf.length < 11 := by
  refine ⟨turnsRun_isRun, ⟨fun n hn => ⟨3 * n + 2, by omega, ?_⟩, fun n hn => ⟨3 * n + 1, by omega, ?_⟩⟩, ?_,
    fun k => ⟨3 * k, by omega, 0, ?_⟩, ⟨rfl, 0x51, rfl, by decide⟩, by decide⟩
  · have : byTurns (3 * n + 2) = .step 0 := by simp [byTurns]
    rw [this]
    exact hn _ (by omega)
  · have : byTurns (3 * n + 1) = .extract := by simp [byTurns]
    rw [this]
    simpa [takesExtract] using hn (3 * n + 1) (by omega)
  · intro m _
    induction m with
    | zero => rfl
    | succ m ih =>
      refine (steps_enable (turnsRun_isRun m) ?_).trans (ih (Nat.zero_le _))
      unfold byTurns
      split
      · exact .inl ⟨_, rfl⟩
      · split
        · exact .inr (.inl rfl)
        · exact .inr (.inr ⟨_, rfl⟩)
  · simp [byTurns]

/-- Clause (c) for a full buffer: every finite BUF_CAP has one. -/
theorem witness_FairParserConsumesSyncIndices_full :
    ∀ c, Config.bufCap = some c →
      Config.bufCap = some (bufOf (List.replicate c 0)).buf.length ∧ 0 < (bufOf (List.replicate c 0)).buf.length := by
  intro c hc
  have := bufCap_ge hc
  refine ⟨by simp [bufOf, hc], by simp [bufOf]; omega⟩

/-- The shape of the reset state that its invariants need, and a step from a state that meets them. -/
theorem witness_StepKeeps : step { State.reset with pending := [.reset] } = .next State.reset := rfl

theorem witness_StepKeepsControlSound : { State.reset with pending := [.reset] }.Sound where
  bufBound := fun _ _ => Nat.zero_le _
  batchBound := fun _ _ => Nat.zero_le _
  outcome := by decide
  unseen := by decide
  seenValid := by decide

theorem witness_StepKeepsValueSets : { State.reset with pending := [.reset] }.ValuesOk where
  sensorInts := by constructor <;> simp [State.reset, Fdc.reset, SensorState.reset, Quad.all, inS16, inS32, inU8]
  sensorFourth := ⟨rfl, rfl, rfl, rfl⟩
  snapInts := by constructor <;> simp [State.reset, Fdc.reset, SensorState.reset, Quad.all, inS16, inS32, inU8]
  snapFourth := ⟨rfl, rfl, rfl, rfl⟩

theorem witness_StepKeepsFloatsPlain : { State.reset with pending := [.reset] }.FloatsOk where
  sensor := by constructor <;> first | exact .inl rfl | (intro i; fin_cases i <;> exact .inl rfl)
  snap := by constructor <;> first | exact .inl rfl | (intro i; fin_cases i <;> exact .inl rfl)

theorem witness_FrameCountsStayBalanced :
    Instr.wf (.step 0) = true ∧ (∀ v, Instr.step 0 = .wrCtrl v → v.getLsbD 2 = false) ∧
      Fdc.Balanced { (batchOf [fAcc]).toFdc with cnt := { Counters.clear with frames := 1 } } := by
  refine ⟨rfl, by simp, ?_⟩
  unfold Fdc.Balanced
  decide

end Sys2Proof.Machine.Tests
end

section
/-! The lanes of a frame as signed integers (00_scope.md R11; 30_encoding.md R94, R96). -/

namespace Sys2Proof

/-- Bit strings one after the other are the digits of a number. -/
theorem toNat_append_eq_add {m n : Nat} (x : BitVec m) (y : BitVec n) :
    (x ++ y).toNat = x.toNat * 2 ^ n + y.toNat := by
  rw [BitVec.toNat_append, ← Nat.shiftLeft_add_eq_or_of_lt y.isLt, Nat.shiftLeft_eq]

theorem le16_toNat (a b : Byte) : (le16 a b).toNat = a.toNat + 2 ^ 8 * b.toNat := by
  have h : (le16 a b).toNat = b.toNat * 2 ^ 8 + a.toNat := toNat_append_eq_add b a
  omega

theorem le32_toNat (a b c d : Byte) :
    (le32 a b c d).toNat = a.toNat + 2 ^ 8 * b.toNat + 2 ^ 16 * c.toNat + 2 ^ 24 * d.toNat := by
  have h : (le32 a b c d).toNat = (d ++ c ++ b).toNat * 2 ^ 8 + a.toNat := toNat_append_eq_add (d ++ c ++ b) a
  rw [toNat_append_eq_add, toNat_append_eq_add] at h
  omega

theorem le16_toInt (a b : Byte) : (le16 a b).toInt =
    if (a.toNat : Int) + 256 * b.toNat < 2 ^ 15 then (a.toNat : Int) + 256 * b.toNat
    else (a.toNat : Int) + 256 * b.toNat - 2 ^ 16 := by
  rw [BitVec.toInt_eq_toNat_cond, le16_toNat]
  split <;> split <;> omega

theorem le32_toInt (a b c d : Byte) : (le32 a b c d).toInt =
    if (a.toNat : Int) + 2 ^ 8 * b.toNat + 2 ^ 16 * c.toNat + 2 ^ 24 * d.toNat < 2 ^ 31
    then (a.toNat : Int) + 2 ^ 8 * b.toNat + 2 ^ 16 * c.toNat + 2 ^ 24 * d.toNat
    else (a.toNat : Int) + 2 ^ 8 * b.toNat + 2 ^ 16 * c.toNat + 2 ^ 24 * d.toNat - 2 ^ 32 := by
  rw [BitVec.toInt_eq_toNat_cond, le32_toNat]
  split <;> split <;> omega

/-- Settles O6: each lane is `le16` or `le32` of its bytes, and these give the two's complement value. -/
theorem lanesAreLittleEndianSigned : Obligations.LanesAreLittleEndianSigned := fun f =>
  ⟨le16_toInt f.p2 f.p3, le16_toInt f.p4 f.p5, le16_toInt f.p6 f.p7, le16_toInt f.p8 f.p9,
    le32_toInt f.p2 f.p3 f.p4 f.p5, le32_toInt f.p6 f.p7 f.p8 f.p9⟩

end Sys2Proof
end

section
/-! `rne64` rounds to nearest, ties to even (00_scope.md R12). The values of the patterns with sign bit 0 are read off
their bits as a number (`magnitudeValue`); the algorithm answers the bits of a multiple of its spacing nearest to the
quotient, and every other value is a multiple of that spacing too or lies below the binade of the quotient. -/

namespace Sys2Proof.Machine

/-! ## Nearest with ties to even -/

/-- `r` is at least as near to `x` as `y` is, and where another `y` is equally near, `m` is even. -/
def NearestEven (x r : ℚ) (m : Nat) (y : ℚ) : Prop :=
  |r - x| ≤ |y - x| ∧ (|r - x| = |y - x| → y ≠ r → m % 2 = 0)

theorem NearestEven.of_lt {x r y : ℚ} {m : Nat} (h : |r - x| < |y - x|) : NearestEven x r m y :=
  ⟨h.le, fun he => absurd he h.ne⟩

theorem NearestEven.neg {x r y : ℚ} {m : Nat} (h : NearestEven x r m y) : NearestEven (-x) (-r) m (-y) := by
  obtain ⟨hle, htie⟩ := h
  have habs : ∀ a b : ℚ, |-a - -b| = |a - b| := fun a b => by rw [neg_sub_neg, abs_sub_comm]
  refine ⟨by rwa [habs, habs], fun he hne => htie ?_ fun h => hne (by rw [h])⟩
  rwa [habs, habs] at he

theorem NearestEven.scale {x r y u : ℚ} {m : Nat} (hu : 0 < u) (h : NearestEven x r m y) :
    NearestEven (x * u) (r * u) m (y * u) := by
  obtain ⟨hle, htie⟩ := h
  have habs : ∀ a : ℚ, |a * u - x * u| = |a - x| * u := fun a => by rw [← sub_mul, abs_mul, abs_of_pos hu]
  unfold NearestEven
  rw [habs, habs]
  exact ⟨mul_le_mul_of_nonneg_right hle hu.le,
    fun he hne => htie (mul_right_cancel₀ hu.ne' he) fun h => hne (by rw [h])⟩

/-- Below a multiple `b` of the spacing that `x` reaches, nothing is nearer than `b` itself. -/
theorem NearestEven.of_lt_le {x r b y : ℚ} {m : Nat} (h : NearestEven x r m b) (hy : y < b) (hb : b ≤ x) :
    NearestEven x r m y := by
  refine .of_lt (h.1.trans_lt ?_)
  rw [abs_sub_comm b, abs_sub_comm y, abs_of_nonneg (by linarith), abs_of_nonneg (by linarith)]
  linarith

/-- A result that is nearest among the values of one sign and 0 is nearest among the values of the other sign. -/
theorem NearestEven.of_nonpos {x r y : ℚ} {m : Nat} (h : NearestEven x r m 0) (hx : 0 ≤ x) (hy : y ≤ 0) :
    NearestEven x r m y := by
  obtain rfl | hy := hy.eq_or_lt
  · exact h
  · exact h.of_lt_le hy hx

/-- A natural number within one half of `x`, and even where it is one half away, is nearest to `x`. -/
theorem NearestEven.of_half {x : ℚ} {m : Nat} (hle : |(m : ℚ) - x| ≤ 1 / 2)
    (htie : |(m : ℚ) - x| = 1 / 2 → m % 2 = 0) (j : Nat) : NearestEven x m m j := by
  rcases eq_or_ne j m with rfl | hne
  · exact ⟨le_rfl, fun _ h => absurd rfl h⟩
  · have hgap : (1 : ℚ) ≤ |(j : ℚ) - m| := by
      exact_mod_cast Int.one_le_abs (sub_ne_zero.2 (Int.ofNat_inj.not.2 hne))
    have htri : |(j : ℚ) - m| ≤ |(j : ℚ) - x| + |(m : ℚ) - x| := by
      rw [abs_sub_comm (m : ℚ) x]
      exact abs_sub_le _ _ _
    exact ⟨by linarith, fun he _ => htie (by linarith)⟩

/-! ## The integer rounding and its spacing -/

theorem roundHalfEven_half {n d : Nat} (hd : 0 < d) :
    |(roundHalfEven n d : ℚ) - (n : ℚ) / d| ≤ 1 / 2 ∧
      (|(roundHalfEven n d : ℚ) - (n : ℚ) / d| = 1 / 2 → roundHalfEven n d % 2 = 0) := by
  have hdQ : (0 : ℚ) < d := by exact_mod_cast hd
  have hn : (n : ℚ) / d = (n / d : Nat) + ((n % d : Nat) : ℚ) / d := by
    rw [div_eq_iff hdQ.ne', add_mul, div_mul_cancel₀ _ hdQ.ne']
    exact_mod_cast (Nat.div_add_mod' n d).symm
  have hr0 : 0 ≤ ((n % d : Nat) : ℚ) / d := by positivity
  have hr1 : ((n % d : Nat) : ℚ) / d < 1 := (div_lt_one hdQ).2 (by exact_mod_cast Nat.mod_lt n hd)
  have hup : d < 2 * (n % d) ↔ 1 / 2 < ((n % d : Nat) : ℚ) / d := by
    rw [div_lt_div_iff₀ two_pos hdQ]; norm_cast; omega
  have htie : 2 * (n % d) = d ↔ ((n % d : Nat) : ℚ) / d = 1 / 2 := by
    rw [div_eq_div_iff hdQ.ne' two_ne_zero]; norm_cast; omega
  simp only [roundHalfEven, hup, htie, hn]
  generalize ((n % d : Nat) : ℚ) / d = r at hr0 hr1
  generalize n / d = f
  split
  case isTrue hround =>
    have habs : |((f + 1 : Nat) : ℚ) - (f + r)| = 1 - r := by
      rw [abs_of_nonneg] <;> push_cast <;> linarith
    rw [habs]
    obtain hr | ⟨hr, hodd⟩ := hround
    · exact ⟨by linarith, fun h => by linarith⟩
    · exact ⟨by linarith, fun _ => by omega⟩
  case isFalse hround =>
    have habs : |(f : ℚ) - (f + r)| = r := by
      rw [abs_sub_comm, abs_of_nonneg] <;> linarith
    rw [habs]
    obtain ⟨hr, heven⟩ := not_or.1 hround
    exact ⟨not_lt.1 hr, fun h => Nat.mod_two_ne_one.1 fun ho => heven ⟨h, ho⟩⟩

theorem le_roundHalfEven {a n d : Nat} (hd : 0 < d) (h : (a : ℚ) ≤ (n : ℚ) / d) : a ≤ roundHalfEven n d := by
  rw [le_div_iff₀ (by exact_mod_cast hd)] at h
  have ha : a ≤ n / d := (Nat.le_div_iff_mul_le hd).2 (by exact_mod_cast h)
  simp only [roundHalfEven]
  split <;> omega

theorem roundHalfEven_le {a n d : Nat} (hd : 0 < d) (h : (n : ℚ) / d < a) : roundHalfEven n d ≤ a := by
  rw [div_lt_iff₀ (by exact_mod_cast hd)] at h
  have ha : n / d < a := (Nat.div_lt_iff_lt_mul hd).2 (by exact_mod_cast h)
  simp only [roundHalfEven]
  split <;> omega

/-- `p / q` rounded to a multiple of `2 ^ t`, as the count of that multiple. -/
def significand (p q : Nat) (t : Int) : Nat :=
  if 0 ≤ t then roundHalfEven p (q * 2 ^ t.toNat) else roundHalfEven (p * 2 ^ (-t).toNat) q

theorem significand_eq_roundHalfEven (p : Nat) {q : Nat} (hq : 0 < q) (t : Int) :
    ∃ n d : Nat, 0 < d ∧ (n : ℚ) / d = (p : ℚ) / q / 2 ^ t ∧ significand p q t = roundHalfEven n d := by
  unfold significand
  split
  case isTrue ht =>
    lift t to Nat using ht
    exact ⟨p, q * 2 ^ t, by positivity, by push_cast; rw [zpow_natCast, div_div], rfl⟩
  case isFalse ht =>
    obtain ⟨k, rfl⟩ : ∃ k : Nat, t = -k := ⟨(-t).toNat, by omega⟩
    refine ⟨p * 2 ^ k, q, hq, ?_, by simp⟩
    push_cast
    rw [zpow_neg, zpow_natCast, div_inv_eq_mul, div_mul_eq_mul_div]

theorem significand_nearestEven (p : Nat) {q : Nat} (hq : 0 < q) (t : Int) (j : Nat) :
    NearestEven ((p : ℚ) / q) (significand p q t * 2 ^ t) (significand p q t) (j * 2 ^ t) := by
  obtain ⟨n, d, hd, hquot, hs⟩ := significand_eq_roundHalfEven p hq t
  obtain ⟨hle, htie⟩ := roundHalfEven_half (n := n) hd
  have h := (NearestEven.of_half hle htie j).scale (zpow_pos (two_pos (α := ℚ)) t)
  rwa [hquot, div_mul_cancel₀ _ (zpow_pos two_pos t).ne', ← hs] at h

theorem le_significand {p q : Nat} (hq : 0 < q) {t : Int} {a : Nat} (h : (a : ℚ) * 2 ^ t ≤ (p : ℚ) / q) :
    a ≤ significand p q t := by
  obtain ⟨n, d, hd, hquot, hs⟩ := significand_eq_roundHalfEven p hq t
  rw [hs]
  exact le_roundHalfEven hd (by rwa [hquot, le_div_iff₀ (by positivity)])

theorem significand_le {p q : Nat} (hq : 0 < q) {t : Int} {a : Nat} (h : (p : ℚ) / q < (a : ℚ) * 2 ^ t) :
    significand p q t ≤ a := by
  obtain ⟨n, d, hd, hquot, hs⟩ := significand_eq_roundHalfEven p hq t
  rw [hs]
  exact roundHalfEven_le hd (by rwa [hquot, div_lt_iff₀ (by positivity)])

/-! ## The binade of the quotient -/

theorem ratExponent_below_iff (p : Nat) {q : Nat} (hq : 0 < q) (e : Int) :
    (if 0 ≤ e then decide (p < q * 2 ^ e.toNat) else decide (p * 2 ^ (-e).toNat < q)) = true ↔
      (p : ℚ) / q < 2 ^ e := by
  have hqQ : (0 : ℚ) < q := by exact_mod_cast hq
  rw [div_lt_iff₀ hqQ]
  split
  case isTrue he =>
    lift e to Nat using he
    rw [decide_eq_true_iff, mul_comm q]
    exact_mod_cast Iff.rfl
  case isFalse he =>
    obtain ⟨k, rfl⟩ : ∃ k : Nat, e = -k := ⟨(-e).toNat, by omega⟩
    rw [decide_eq_true_iff, zpow_neg, zpow_natCast, inv_mul_eq_div, lt_div_iff₀ (by positivity)]
    simp only [neg_neg, Int.toNat_natCast]
    exact_mod_cast Iff.rfl

theorem two_zpow_log2_le {n : Nat} (hn : 0 < n) : (2 : ℚ) ^ (Nat.log2 n : ℤ) ≤ n := by
  rw [zpow_natCast]
  exact_mod_cast Nat.log2_self_le hn.ne'

theorem lt_two_zpow_log2 (n : Nat) : (n : ℚ) < 2 ^ ((Nat.log2 n : ℤ) + 1) := by
  have h : n < 2 ^ (Nat.log2 n + 1) := Nat.lt_log2_self
  exact_mod_cast h

/-- `ratExponent` names the binade of the quotient: its estimate from the bit lengths is too high by at most one. -/
theorem ratExponent_spec {p q : Nat} (hp : 0 < p) (hq : 0 < q) :
    (2 : ℚ) ^ ratExponent p q ≤ (p : ℚ) / q ∧ (p : ℚ) / q < 2 ^ (ratExponent p q + 1) := by
  have hqQ : (0 : ℚ) < q := by exact_mod_cast hq
  have hlow : (2 : ℚ) ^ ((Nat.log2 p : ℤ) - Nat.log2 q - 1) ≤ (p : ℚ) / q := by
    rw [sub_sub, zpow_sub₀ two_ne_zero]
    exact div_le_div₀ (by positivity) (two_zpow_log2_le hp) hqQ (lt_two_zpow_log2 q).le
  have hhigh : (p : ℚ) / q < 2 ^ ((Nat.log2 p : ℤ) - Nat.log2 q + 1) := by
    rw [sub_add_eq_add_sub, zpow_sub₀ two_ne_zero]
    exact div_lt_div₀ (lt_two_zpow_log2 p) (two_zpow_log2_le hq) (by positivity) (by positivity)
  simp only [ratExponent, ratExponent_below_iff p hq]
  split
  case isTrue hbelow => exact ⟨hlow, by simpa using hbelow⟩
  case isFalse hbelow => exact ⟨not_lt.1 hbelow, hhigh⟩

/-- The number of the binade of `p / q` among the binades of binary64, from 0 for the lowest one, in which the
subnormal values lie too. -/
def binade (p q : Nat) : Nat := (max (ratExponent p q) (-1022) + 1022).toNat

theorem lt_of_binade {p q : Nat} (hp : 0 < p) (hq : 0 < q) : (p : ℚ) / q < 2 ^ ((binade p q : ℤ) - 1021) :=
  (ratExponent_spec hp hq).2.trans_le (zpow_le_zpow_right₀ one_le_two (by unfold binade; omega))

theorem le_of_binade_pos {p q : Nat} (hp : 0 < p) (hq : 0 < q) (hk : 0 < binade p q) :
    (2 : ℚ) ^ ((binade p q : ℤ) - 1022) ≤ (p : ℚ) / q :=
  (zpow_le_zpow_right₀ one_le_two (by unfold binade at *; omega)).trans (ratExponent_spec hp hq).1

theorem magnitudeBits_eq {p : Nat} (hp : 0 < p) (q : Nat) : magnitudeBits p q =
    min (binade p q * 2 ^ 52 + significand p q ((binade p q : ℤ) - 1074)) (2047 * 2 ^ 52) := by
  have ht : (binade p q : ℤ) - 1074 = max (ratExponent p q) (-1022) - 52 := by unfold binade; omega
  rw [ht, magnitudeBits, if_neg hp.ne']
  rfl

/-! ## The values of patterns -/

/-- The value of a pattern without its sign bit, read off its bits as a number. -/
def magnitudeValue (n : Nat) : ℚ :=
  if n / 2 ^ 52 = 0 then (n % 2 ^ 52 : Nat) * 2 ^ (-1074 : ℤ)
  else ((2 ^ 52 + n % 2 ^ 52 : Nat) : ℚ) * 2 ^ (((n / 2 ^ 52 : Nat) : ℤ) - 1075)

theorem b64Exponent_eq (b : Binary64) : b64Exponent b = b.toNat % 2 ^ 63 / 2 ^ 52 := by
  rw [b64Exponent, BitVec.extractLsb'_toNat, Nat.shiftRight_eq_div_pow]
  omega

theorem b64Fraction_eq (b : Binary64) : b64Fraction b = b.toNat % 2 ^ 63 % 2 ^ 52 := by
  rw [b64Fraction, BitVec.extractLsb'_toNat, Nat.shiftRight_eq_div_pow]
  omega

theorem b64Value_eq (b : Binary64) :
    b64Value b = (if b.getLsbD 63 then -1 else 1) * magnitudeValue (b.toNat % 2 ^ 63) := by
  rw [b64Value, magnitudeValue, b64Exponent_eq, b64Fraction_eq]

@[simp] theorem magnitudeValue_zero : magnitudeValue 0 = 0 := by simp [magnitudeValue]

theorem magnitudeValue_subnormal {f : Nat} (hf : f < 2 ^ 52) : magnitudeValue f = f * 2 ^ (-1074 : ℤ) := by
  rw [magnitudeValue, if_pos (Nat.div_eq_of_lt hf), Nat.mod_eq_of_lt hf]

theorem magnitudeValue_normal {f : Nat} (k : Nat) (hf : f < 2 ^ 52) :
    magnitudeValue ((k + 1) * 2 ^ 52 + f) = (2 ^ 52 + f : Nat) * 2 ^ ((k : ℤ) - 1074) := by
  have hexp : ((k + 1) * 2 ^ 52 + f) / 2 ^ 52 = k + 1 := by omega
  have hfrac : ((k + 1) * 2 ^ 52 + f) % 2 ^ 52 = f := by omega
  have he : ((k + 1 : Nat) : ℤ) - 1075 = (k : ℤ) - 1074 := by omega
  rw [magnitudeValue, hexp, hfrac, if_neg k.succ_ne_zero, he]

/-- The subnormal and the normal patterns without their sign bit. -/
theorem magnitude_cases (n : Nat) : n < 2 ^ 52 ∨ ∃ k f, f < 2 ^ 52 ∧ n = (k + 1) * 2 ^ 52 + f := by
  rcases Nat.lt_or_ge n (2 ^ 52) with h | h
  · exact .inl h
  · exact .inr ⟨n / 2 ^ 52 - 1, n % 2 ^ 52, by omega, by omega⟩

/-- `2 ^ i` spacings of one binade make one spacing of the binade `i` above it. -/
theorem two_pow_mul_spacing (i k : Nat) :
    ((2 ^ i : Nat) : ℚ) * 2 ^ ((k : ℤ) - 1074) = 2 ^ (((k + i : Nat) : ℤ) - 1074) := by
  rw [Nat.cast_pow, Nat.cast_ofNat, ← zpow_natCast, ← zpow_add₀ two_ne_zero]
  congr 1
  push_cast
  ring

theorem spacing_mono {k l : Nat} (h : k ≤ l) : (2 : ℚ) ^ ((k : ℤ) - 1074) ≤ 2 ^ ((l : ℤ) - 1074) :=
  zpow_le_zpow_right₀ one_le_two (by omega)

/-- In binade `k` the bits count the multiples of the spacing, its upper end included. -/
theorem magnitudeValue_binade {k m : Nat} (hm : m ≤ 2 ^ 53) (hk : 0 < k → 2 ^ 52 ≤ m) :
    magnitudeValue (k * 2 ^ 52 + m) = m * 2 ^ ((k : ℤ) - 1074) := by
  rcases magnitude_cases m with hlow | ⟨l, f, hf, rfl⟩
  case inl =>
    obtain rfl : k = 0 := by omega
    simpa using magnitudeValue_subnormal hlow
  case inr =>
    have hbits : k * 2 ^ 52 + ((l + 1) * 2 ^ 52 + f) = (k + l + 1) * 2 ^ 52 + f := by omega
    rw [hbits, magnitudeValue_normal (k + l) hf, ← two_pow_mul_spacing l k, ← mul_assoc, ← Nat.cast_mul]
    obtain rfl | ⟨rfl, rfl⟩ : l = 0 ∨ l = 1 ∧ f = 0 := by omega
    · congr 2
      omega
    · rfl

/-- Seen from binade `k`, a value is a multiple of the spacing or lies below the binade. -/
theorem magnitudeValue_multiple_or_lt (k n : Nat) :
    (∃ j : Nat, magnitudeValue n = j * 2 ^ ((k : ℤ) - 1074)) ∨
      0 < k ∧ magnitudeValue n < (2 ^ 52 : Nat) * 2 ^ ((k : ℤ) - 1074) := by
  rcases magnitude_cases n with hn | ⟨l, f, hf, rfl⟩
  case inl =>
    rw [magnitudeValue_subnormal hn]
    rcases Nat.eq_zero_or_pos k with rfl | hk
    · exact .inl ⟨n, by simp⟩
    · refine .inr ⟨hk, mul_lt_mul (by exact_mod_cast hn) ?_ (by positivity) (by positivity)⟩
      simpa using spacing_mono hk.le
  case inr =>
    rw [magnitudeValue_normal l hf]
    rcases Nat.lt_or_ge l k with hlk | hkl
    · refine .inr ⟨by omega, ?_⟩
      calc ((2 ^ 52 + f : Nat) : ℚ) * 2 ^ ((l : ℤ) - 1074)
          < (2 ^ 52 * 2 ^ 1 : Nat) * 2 ^ ((l : ℤ) - 1074) := by
            refine mul_lt_mul_of_pos_right ?_ (by positivity)
            exact_mod_cast (by omega : 2 ^ 52 + f < 2 ^ 52 * 2 ^ 1)
        _ = (2 ^ 52 : Nat) * 2 ^ (((l + 1 : Nat) : ℤ) - 1074) := by
            rw [Nat.cast_mul, mul_assoc, two_pow_mul_spacing]
        _ ≤ (2 ^ 52 : Nat) * 2 ^ ((k : ℤ) - 1074) :=
            mul_le_mul_of_nonneg_left (spacing_mono hlk) (by positivity)
    · refine .inl ⟨(2 ^ 52 + f) * 2 ^ (l - k), ?_⟩
      rw [Nat.cast_mul, mul_assoc, two_pow_mul_spacing, Nat.add_sub_cancel' hkl]

/-! ## The rounding -/

/-- The bits the model computes are the multiple of the spacing of the quotient's binade that is nearest to it. -/
theorem magnitudeBits_spec {p q : Nat} (hp : 0 < p) (hq : 0 < q) (hfin : magnitudeBits p q < 2047 * 2 ^ 52) :
    ∃ m : Nat, magnitudeBits p q = binade p q * 2 ^ 52 + m ∧
      magnitudeValue (magnitudeBits p q) = m * 2 ^ ((binade p q : ℤ) - 1074) ∧
      ∀ j : Nat, NearestEven ((p : ℚ) / q) (m * 2 ^ ((binade p q : ℤ) - 1074)) m
        (j * 2 ^ ((binade p q : ℤ) - 1074)) := by
  have hbits : magnitudeBits p q =
      binade p q * 2 ^ 52 + significand p q ((binade p q : ℤ) - 1074) := by
    have := magnitudeBits_eq hp q
    omega
  refine ⟨_, hbits, ?_, significand_nearestEven p hq _⟩
  rw [hbits]
  refine magnitudeValue_binade (significand_le hq ?_) fun hk => le_significand hq ?_
  · rw [two_pow_mul_spacing]
    exact (lt_of_binade hp hq).trans_eq (by congr 1; omega)
  · rw [two_pow_mul_spacing]
    exact (le_of_binade_pos hp hq hk).trans_eq' (by congr 1; omega)

theorem magnitudeBits_nearestEven (p : Nat) {q : Nat} (hq : 0 < q) (hfin : magnitudeBits p q < 2047 * 2 ^ 52)
    (n : Nat) : NearestEven ((p : ℚ) / q) (magnitudeValue (magnitudeBits p q)) (magnitudeBits p q)
      (magnitudeValue n) := by
  rcases Nat.eq_zero_or_pos p with rfl | hp
  · exact ⟨by simp [magnitudeBits], fun _ _ => by simp [magnitudeBits]⟩
  obtain ⟨m, hbits, hvalue, hnear⟩ := magnitudeBits_spec hp hq hfin
  have hparity : magnitudeBits p q % 2 = m % 2 := by omega
  rw [hvalue, NearestEven, hparity, ← NearestEven]
  rcases magnitudeValue_multiple_or_lt (binade p q) n with ⟨j, hj⟩ | ⟨hk, hlt⟩
  · rw [hj]
    exact hnear j
  · refine (hnear (2 ^ 52)).of_lt_le hlt ?_
    rw [two_pow_mul_spacing]
    exact (le_of_binade_pos hp hq hk).trans_eq' (by congr 1; omega)

theorem magnitudeValue_nonneg (n : Nat) : 0 ≤ magnitudeValue n := by
  unfold magnitudeValue
  split <;> positivity

theorem abs_b64Value (b : Binary64) : |b64Value b| = magnitudeValue (b.toNat % 2 ^ 63) := by
  rw [b64Value_eq, abs_mul, abs_of_nonneg (magnitudeValue_nonneg _)]
  split <;> simp

/-- The rounding of a quotient that is not negative, against every value of either sign. -/
theorem magnitudeBits_nearestEven_abs (p : Nat) {q n : Nat} {y : ℚ} (hq : 0 < q)
    (hfin : magnitudeBits p q < 2047 * 2 ^ 52) (hy : |y| = magnitudeValue n) :
    NearestEven ((p : ℚ) / q) (magnitudeValue (magnitudeBits p q)) (magnitudeBits p q) y := by
  rcases le_total 0 y with h | h
  · rw [abs_of_nonneg h] at hy
    exact hy ▸ magnitudeBits_nearestEven p hq hfin n
  · have hzero := magnitudeBits_nearestEven p hq hfin 0
    rw [magnitudeValue_zero] at hzero
    exact hzero.of_nonpos (by positivity) h

theorem magnitudeBits_le (p q : Nat) : magnitudeBits p q ≤ 2047 * 2 ^ 52 := by
  unfold magnitudeBits
  split
  · exact Nat.zero_le _
  · exact Nat.min_le_right _ _

theorem rne64_toNat (num : Int) (den : Nat) :
    (rne64 num den).toNat = (if num < 0 then 2 ^ 63 else 0) + magnitudeBits num.natAbs den := by
  have hle := magnitudeBits_le num.natAbs den
  rw [rne64, BitVec.toNat_ofNat]
  split <;> omega

theorem rne64_toNat_mod (num : Int) (den : Nat) :
    (rne64 num den).toNat % 2 ^ 63 = magnitudeBits num.natAbs den := by
  have hle := magnitudeBits_le num.natAbs den
  rw [rne64_toNat]
  split <;> omega

theorem rne64_sign (num : Int) (den : Nat) : (rne64 num den).getLsbD 63 = decide (num < 0) := by
  have hle := magnitudeBits_le num.natAbs den
  rw [← BitVec.msb_eq_getLsbD_last, BitVec.msb_eq_decide, rne64_toNat, decide_eq_decide]
  split <;> omega

theorem rne64_lastBit (num : Int) (den : Nat) :
    (rne64 num den).getLsbD 0 = decide (magnitudeBits num.natAbs den % 2 = 1) := by
  rw [← rne64_toNat_mod, BitVec.getLsbD, Nat.testBit_zero, decide_eq_decide]
  omega

theorem magnitudeBits_lt_of_finite {num : Int} {den : Nat} (h : b64Finite (rne64 num den)) :
    magnitudeBits num.natAbs den < 2047 * 2 ^ 52 := by
  have hle := magnitudeBits_le num.natAbs den
  rw [b64Finite, b64Exponent_eq, rne64_toNat_mod] at h
  omega

theorem rne64_nearestEven (num : Int) {den : Nat} (hden : 0 < den) (hfin : b64Finite (rne64 num den))
    (c : Binary64) :
    NearestEven ((num : ℚ) / den) (b64Value (rne64 num den)) (magnitudeBits num.natAbs den) (b64Value c) := by
  have hlt := magnitudeBits_lt_of_finite hfin
  rw [b64Value_eq (rne64 num den), rne64_sign, rne64_toNat_mod]
  rcases lt_or_ge num 0 with hneg | hpos
  case inl =>
    have hnum : (num : ℚ) / den = -((num.natAbs : ℚ) / den) := by
      rw [← neg_div, Nat.cast_natAbs, abs_of_neg hneg, Int.cast_neg, neg_neg]
    have h := (magnitudeBits_nearestEven_abs num.natAbs hden hlt ((abs_neg _).trans (abs_b64Value c))).neg
    simpa [hneg, hnum] using h
  case inr =>
    have hnum : (num : ℚ) / den = (num.natAbs : ℚ) / den := by
      rw [Nat.cast_natAbs, abs_of_nonneg hpos]
    simpa [hpos.not_gt, hnum] using
      magnitudeBits_nearestEven_abs num.natAbs hden hlt (abs_b64Value c)

/-- Settles O37: the bits of the magnitude are nearest with ties to even among all patterns without sign, the sign
mirrors both sides, and the last bit of the bits is that of the significand. -/
theorem roundingIsNearestTiesToEven : Obligations.RoundingIsNearestTiesToEven := by
  refine ⟨fun den _ => by simp [rne64, magnitudeBits], fun num den c hden hfin _ => ?_⟩
  obtain ⟨hle, htie⟩ := rne64_nearestEven num hden hfin c
  refine ⟨hle, fun he hne => ?_⟩
  rw [rne64_lastBit, htie he hne]
  rfl

end Sys2Proof.Machine
end

section
/-! What a step of the machine is: an effect of a well-formed instruction (20_memory.md R70, R71). -/

namespace Sys2Proof

/-- An accepted access is at one of the 128 register offsets. -/
theorem decodeHost_ok {width off : Nat} {i j : Instr} (h : decodeHost width off i = .ok j) :
    j = i ∧ width = 8 ∧ ∃ o : BitVec 7, off = offsetOf o := by
  unfold decodeHost at h
  split at h
  · cases h
  split at h
  · cases h
  split at h
  · cases h
  · cases h
    refine ⟨rfl, by omega, BitVec.ofNat 7 (off / 8), ?_⟩
    simp only [offsetOf, BitVec.toNat_ofNat]
    omega

/-- Every accepted encoded step is one that the fallback row of its format encodes, whichever row it decodes to. -/
theorem exists_encode_of_decode {w : StepWord} {i : Instr} (h : decode w = .ok i) : ∃ j, encode j = w := by
  cases w with
  | frame now bytes =>
    cases hf : Frame.ofBytes? bytes with
    | none => simp [decode, hf] at h
    | some f =>
      refine ⟨.unknown now f.sync f.typ (le64 f.p2 f.p3 f.p4 f.p5 f.p6 f.p7 f.p8 f.p9) f.cks, ?_⟩
      simp [encode, unknownFrame, byteAt_le64, ofBytes_eq_some hf]
  | hostRead width off =>
    obtain ⟨-, rfl, o, rfl⟩ := decodeHost_ok h
    exact ⟨.rdReserved o, rfl⟩
  | hostWrite width off data =>
    obtain ⟨-, rfl, o, rfl⟩ := decodeHost_ok h
    exact ⟨.wrOther o data, rfl⟩
  | push b => exact ⟨.push b, rfl⟩
  | extract => exact ⟨.extract, rfl⟩
  | frameStep now => exact ⟨.step now, rfl⟩
  | reset => exact ⟨.reset, rfl⟩

theorem wf_of_decode {w : StepWord} {i : Instr} (h : decode w = .ok i) : i.wf = true := by
  obtain ⟨j, rfl⟩ := exists_encode_of_decode h
  obtain ⟨k, hk, hwf⟩ := decode_encode_ok j
  obtain rfl : i = k := Except.ok.inj (h.symm.trans hk)
  exact hwf

end Sys2Proof

namespace Sys2Proof.Machine

theorem exists_effect_of_step {s t : State} (h : step s = .next t) : ∃ i, Effect i s.toFdc t.toFdc := by
  obtain ⟨i, hd, ⟨S, T, hS, hT, he⟩, -, -⟩ := steps_of_step h
  rw [← hS, ← hT]
  exact ⟨i, exec_effect (wf_of_decode hd) he⟩

end Sys2Proof.Machine
end

section
/-! The fields of SensorState after writes, and which fields and values the write sets of the frame rows hold
(43_gate_apply.md R196; 42_decode.md R160-R171). -/

namespace Sys2Proof.Machine

/-! ## Reads after writes -/

theorem Quad.get_set {α : Type} (q : Quad α) (i j : Fin 4) (v : α) :
    (q.set i v).get j = if i = j then v else q.get j := by
  fin_cases i <;> fin_cases j <;> rfl

theorem DeviceClock.get_set (c : DeviceClock) (i j : Fin 7) (v : Int) :
    (c.set i v).get j = if i = j then v else c.get j := by
  fin_cases i <;> fin_cases j <;> rfl

/-- A write changes the field it names, to its value, and no other. -/
theorem SensorState.get_write (S : SensorState) (w : FieldWrite) (a : SensorField) :
    (S.write w).get a = if w.field = a then w.value else S.get a := by
  cases w <;> cases a <;>
    simp [SensorState.write, SensorState.get, FieldWrite.field, FieldWrite.value, Quad.get_set, DeviceClock.get_set,
      apply_ite FieldValue.float, apply_ite FieldValue.int]

/-- What every write of a write set keeps, the write set keeps. -/
theorem applyWrites_keeps {P : SensorState → Prop} {ws : List FieldWrite}
    (hw : ∀ w ∈ ws, ∀ S : SensorState, P S → P (S.write w)) {S : SensorState} (hS : P S) : P (applyWrites ws S) :=
  List.foldlRecOn ws SensorState.write hS fun S hS w hmem => hw w hmem S hS

theorem get_applyWrites_of_notMem {ws : List FieldWrite} {a : SensorField}
    (h : a ∉ ws.map FieldWrite.field) (S : SensorState) : (applyWrites ws S).get a = S.get a := by
  refine applyWrites_keeps (P := fun S' => S'.get a = S.get a) (fun w hw S' hS' => ?_) rfl
  have hne : w.field ≠ a := fun he => h (he ▸ List.mem_map_of_mem hw)
  rw [S'.get_write, if_neg hne, hS']

/-! ## The write sets -/

/-- The write set of the row of each channel. -/
def channelWrites (lut : ScaleLut) (f : Frame) : Channel → List FieldWrite
  | .clock => clockWrites lut f.p2 f.p3 f.p4 f.p5 f.p6 f.p7 f.half3
  | .acc => accWrites lut f.half0 f.half1 f.half2 f.half3
  | .gyro => gyroWrites lut f.half0 f.half1 f.half2 f.half3
  | .angle => angleWrites lut f.half0 f.half1 f.half2 f.half3
  | .mag => magWrites lut f.half0 f.half1 f.half2 f.half3
  | .port => portWrites f.half0 f.half1 f.half2 f.half3
  | .press => pressWrites lut f.word0 f.word1
  | .lonlat => lonlatWrites f.word0 f.word1
  | .gpsv => gpsvWrites lut f.half0 f.half1 f.half2

/-- The fields a frame of each channel writes, in the order of its write set. -/
def channelFields : Channel → List SensorField
  | .clock =>
    [.deviceClock 0, .deviceClock 1, .deviceClock 2, .deviceClock 3, .deviceClock 4, .deviceClock 5, .deviceClock 6]
  | .acc => [.acceleration 0, .acceleration 1, .acceleration 2, .temperature]
  | .gyro => [.angularVelocity 0, .angularVelocity 1, .angularVelocity 2, .temperature]
  | .angle => [.angle 0, .angle 1, .angle 2, .temperature]
  | .mag => [.magneticField 0, .magneticField 1, .magneticField 2, .temperature]
  | .port => [.digitalPort 0, .digitalPort 1, .digitalPort 2, .digitalPort 3]
  | .press => [.pressure, .altitude]
  | .lonlat => [.longitude, .latitude]
  | .gpsv => [.gpsHeight, .gpsYaw, .groundVelocity]

theorem map_field_channelWrites (lut : ScaleLut) (f : Frame) (c : Channel) :
    (channelWrites lut f c).map FieldWrite.field = channelFields c := by
  cases c <;> rfl

theorem get_applyWrites_channelWrites {a : SensorField} {c : Channel} (h : a ∉ channelFields c) (lut : ScaleLut)
    (f : Frame) (S : SensorState) : (applyWrites (channelWrites lut f c) S).get a = S.get a :=
  get_applyWrites_of_notMem (map_field_channelWrites lut f c ▸ h) S

theorem decodePayload_eq_known {lut : ScaleLut} {f : Frame} {c : Channel} {ws : List FieldWrite}
    (h : decodePayload lut f = .known c ws) : channelOf f.typ = some c ∧ ws = channelWrites lut f c := by
  unfold decodePayload at h
  split at h <;> cases h
  all_goals exact ⟨‹_›, rfl⟩

/-- What the FRAME step does to a frame with its own decode: it records an outcome other than Applied and no more, or
it records Applied and applies the write set of the channel that the type byte names. -/
theorem retireFrame_decodePayload_cases (interval now : Nat) (lut : ScaleLut) (f : Frame) (s : Fdc) :
    (∃ o, o ≠ .applied ∧ retireFrame interval now f (decodePayload lut f) s =
      recordOutcome o { s with batch := s.batch.tail }) ∨
    ∃ c, channelOf f.typ = some c ∧ retireFrame interval now f (decodePayload lut f) s =
      applyFrame c (channelWrites lut f c) now (recordOutcome .applied { s with batch := s.batch.tail }) := by
  rcases retireFrame_cases interval now f (decodePayload lut f) s with ⟨ho, e⟩ | ⟨c, ws, hd, -, e⟩
  · exact .inl ⟨_, ho, e⟩
  · obtain ⟨hc, rfl⟩ := decodePayload_eq_known hd
    exact .inr ⟨c, hc, e⟩

end Sys2Proof.Machine
end

section
/-! The control state stays sound (10_state.md R22, R25, R31, R36; 60_exceptions.md R251). -/

namespace Sys2Proof.Machine

/-! ## The buffer and the batch -/

theorem pushByte_buf_length_le {c : Nat} (hc : Config.bufCap = some c) (b : Byte) {s : Fdc} (hs : s.buf.length ≤ c) :
    (pushByte Config.bufCap b s).buf.length ≤ c := by
  have h11 := bufCap_ge hc
  rcases pushByte_cases Config.bufCap b s with ⟨-, e⟩ | ⟨-, -, e⟩ | ⟨-, hne, e⟩ <;> rw [e]
  case inl => exact hs
  case inr.inl =>
    simp only [List.length_append, List.length_drop, List.length_singleton]
    omega
  case inr.inr =>
    have hlt : s.buf.length ≠ c := fun h => hne (h ▸ hc)
    simp only [List.length_append, List.length_singleton]
    omega

theorem Fdc.Sound.pushByte {s : Fdc} (hs : s.Sound) (b : Byte) : (pushByte Config.bufCap b s).Sound := by
  have hbuf := fun c hc => pushByte_buf_length_le hc b (hs.bufBound c hc)
  rcases pushByte_cases Config.bufCap b s with ⟨-, e⟩ | ⟨-, -, e⟩ | ⟨-, -, e⟩ <;> rw [e] at hbuf ⊢
  case inl => exact hs
  all_goals exact { hs with bufBound := hbuf }

theorem frameCount_le (buf : List Byte) (h : Nat) : frameCount buf h ≤ buf.length / 11 :=
  Nat.div_le_div_right (Nat.sub_le ..)

theorem Fdc.Sound.extractFrames {s : Fdc} (hs : s.Sound) (mask : Byte) : (extractFrames mask s).Sound := by
  rcases extractFrames_cases mask s with e | ⟨-, -, h, -, -, e⟩ <;> rw [e]
  case inl => exact hs
  case inr =>
    refine { hs with bufBound := fun c hc => ?buffer, batchBound := fun c hc => ?batch }
    case buffer => exact (List.drop_sublist _ _).length_le.trans (hs.bufBound c hc)
    case batch =>
      rw [sliceFrames_length]
      exact (frameCount_le s.buf h).trans (Nat.div_le_div_right (hs.bufBound c hc))

/-! ## The gate and the valid bits -/

theorem gateRecord_get (t : Channel) (now : Nat) (G : Quad GateEntry) (g : Fin 4) :
    (gateRecord t now G).get g = if gateIndex t = some g then ⟨now, true⟩ else G.get g := by
  unfold gateRecord
  cases ht : gateIndex t with
  | none => simp
  | some k => simp [Quad.get_set]

/-- The gated channels are those of the valid bits 1 to 4, in the order of the gate. -/
theorem setValid_getLsbD (t : Channel) (v : BitVec 9) (g : Fin 4) :
    (setValid t v).getLsbD (g.val + 1) = (v.getLsbD (g.val + 1) || decide (gateIndex t = some g)) := by
  have hbit : ∀ g : Fin 4, (1 <<< channelIndex t : BitVec 9).getLsbD (g.val + 1) = decide (gateIndex t = some g) := by
    cases t <;> decide
  rw [setValid, BitVec.getLsbD_or, hbit]

theorem Fdc.Sound.applyFrame {s : Fdc} (hs : s.Sound) (t : Channel) (w : List FieldWrite) (now : Nat) :
    (applyFrame t w now s).Sound where
  bufBound := hs.bufBound
  batchBound := hs.batchBound
  outcome := hs.outcome
  unseen g := by
    rw [applyFrame_gate, gateRecord_get]
    split
    · simp
    · exact hs.unseen g
  seenValid g := by
    rw [applyFrame_gate, applyFrame_chValid, gateRecord_get, setValid_getLsbD]
    split <;> simp [*, hs.seenValid g]

/-! ## Every step -/

theorem outcomeCode_le (o : FrameOutcome) : (outcomeCode o).toNat ≤ 4 := by
  cases o <;> decide

theorem Fdc.Sound.recordOutcome {s : Fdc} (hs : s.Sound) (o : FrameOutcome) :
    (recordOutcome o { s with batch := s.batch.tail }).Sound :=
  { hs with
    batchBound := fun c hc => by
      have := hs.batchBound c hc
      simp only [recordOutcome_batch, List.length_tail]
      omega
    outcome := outcomeCode_le o }

theorem Fdc.Sound.retireFrame {s : Fdc} (hs : s.Sound) (interval now : Nat) (f : Frame) (d : Decoded) :
    (retireFrame interval now f d s).Sound := by
  rcases retireFrame_cases interval now f d s with ⟨-, e⟩ | ⟨t, w, -, -, e⟩ <;> rw [e]
  · exact hs.recordOutcome _
  · exact (hs.recordOutcome .applied).applyFrame t w now

theorem Fdc.Sound.reset : Fdc.reset.Sound where
  bufBound _ _ := Nat.zero_le _
  batchBound _ _ := Nat.zero_le _
  outcome := Nat.zero_le _
  unseen := by decide
  seenValid := by decide

theorem Fdc.Sound.effect {i : Instr} {s t : Fdc} (hs : s.Sound) (h : Effect i s t) : t.Sound := by
  cases h with
  | same => exact hs
  | push b _ => exact hs.pushByte b
  | extract _ => exact hs.extractFrames _
  | reset _ => exact Fdc.Sound.reset
  | ctrl v _ => exact { hs with }
  | frame now f rest _ _ => exact hs.retireFrame ..

/-- Settles O55: each operation of the machine keeps each part of `Sound`, and a step is one of them. -/
theorem stepKeepsControlSound : Obligations.StepKeepsControlSound := fun _ _ hs h =>
  let ⟨_, he⟩ := exists_effect_of_step h
  hs.effect he

end Sys2Proof.Machine
end

section
/-! The stored values stay in their value sets, and the fourth elements at reset (10_state.md R26, R29). -/

namespace Sys2Proof.Machine

/-! ## The value sets by field -/

/-- The value sets of `IntsInRange` by field (10_state.md R26). It leaves out the fourth element of `magneticField`, which
is pinned to its reset value instead (R29). -/
def inValueSet : SensorField → FieldValue → Prop
  | .magneticField i, .int v => i ≠ 3 → inS16 v
  | .digitalPort _, .int v => inS16 v
  | .pressure, .int v | .longitude, .int v | .latitude, .int v => inS32 v
  | .deviceClock i, .int v =>
    if i = 0 then v = 0 ∨ (2000 ≤ v ∧ v ≤ 2255) else if i = 6 then inS16 v else inU8 v
  | _, _ => True

theorem intsInRange_iff (S : SensorState) : S.IntsInRange ↔ ∀ a, inValueSet a (S.get a) := by
  constructor
  · rintro ⟨mag0, mag1, mag2, port0, port1, port2, port3, hp, hlo, hla, y, mo, d, hh, mi, ss, ms⟩ a
    cases a with
    | magneticField i => fin_cases i <;> simp [inValueSet, SensorState.get, *]
    | digitalPort i => fin_cases i <;> simp [inValueSet, SensorState.get, *]
    | deviceClock i => fin_cases i <;> simp [inValueSet, SensorState.get, *]
    | _ => simp [inValueSet, SensorState.get, *]
  · intro h
    exact
      { mag0 := h (.magneticField 0) (by decide)
        mag1 := h (.magneticField 1) (by decide)
        mag2 := h (.magneticField 2) (by decide)
        port0 := h (.digitalPort 0)
        port1 := h (.digitalPort 1)
        port2 := h (.digitalPort 2)
        port3 := h (.digitalPort 3)
        pressure := h .pressure
        longitude := h .longitude
        latitude := h .latitude
        year := h (.deviceClock 0)
        month := h (.deviceClock 1)
        day := h (.deviceClock 2)
        hour := h (.deviceClock 3)
        minute := h (.deviceClock 4)
        second := h (.deviceClock 5)
        ms := h (.deviceClock 6) }

theorem inS16_toInt (v : Half) : inS16 v.toInt := by
  unfold inS16
  have := BitVec.le_toInt v
  have := BitVec.toInt_lt (x := v)
  omega

theorem inS32_toInt (v : Word32) : inS32 v.toInt := by
  unfold inS32
  have := BitVec.le_toInt v
  have := BitVec.toInt_lt (x := v)
  omega

theorem inU8_toNat (v : Byte) : inU8 v.toNat := by
  unfold inU8
  have := v.isLt
  omega

theorem year_range (v : Byte) : (2000 : Int) ≤ 2000 + v.toNat ∧ (2000 : Int) + v.toNat ≤ 2255 := by
  have := v.isLt
  omega

/-- The decoder stores a value of the field's value set, whatever the bytes of the frame. -/
theorem inValueSet_of_mem_channelWrites {f : Frame} {c : Channel} {w : FieldWrite}
    (h : w ∈ channelWrites Config.scaleLut f c) : inValueSet w.field w.value := by
  revert w
  cases c <;>
    simp only [channelWrites, clockWrites, accWrites, gyroWrites, angleWrites, magWrites, portWrites, pressWrites,
      lonlatWrites, gpsvWrites, List.forall_mem_cons]
  case clock =>
    exact ⟨.inr (year_range _), inU8_toNat _, inU8_toNat _, inU8_toNat _, inU8_toNat _, inU8_toNat _, inS16_toInt _,
      nofun⟩
  case mag => exact ⟨fun _ => inS16_toInt _, fun _ => inS16_toInt _, fun _ => inS16_toInt _, trivial, nofun⟩
  case port => exact ⟨inS16_toInt _, inS16_toInt _, inS16_toInt _, inS16_toInt _, nofun⟩
  case press => exact ⟨inS32_toInt _, trivial, nofun⟩
  case lonlat => exact ⟨inS32_toInt _, inS32_toInt _, nofun⟩
  case acc | gyro | angle => exact ⟨trivial, trivial, trivial, trivial, nofun⟩
  case gpsv => exact ⟨trivial, trivial, trivial, nofun⟩

theorem SensorState.IntsInRange.applyWrites {S : SensorState} (hS : S.IntsInRange) (f : Frame) (c : Channel) :
    (applyWrites (channelWrites Config.scaleLut f c) S).IntsInRange := by
  refine applyWrites_keeps (fun w hw S hS => ?_) hS
  rw [intsInRange_iff] at hS ⊢
  intro a
  rw [S.get_write]
  split
  case isTrue ha => exact ha ▸ inValueSet_of_mem_channelWrites hw
  case isFalse => exact hS a

theorem SensorState.IntsInRange.reset : SensorState.reset.IntsInRange := by
  constructor <;> simp [SensorState.reset, Quad.all, inS16, inS32, inU8]

/-! ## The fourth elements -/

/-- The fields R29 names. -/
def isFourth : SensorField → Bool
  | .acceleration i | .angularVelocity i | .angle i | .magneticField i => i == 3
  | _ => false

theorem not_isFourth_of_mem_channelFields (c : Channel) : ∀ a ∈ channelFields c, isFourth a = false := by
  cases c <;> decide

/-- The fields R29 names hold the same values in both. -/
def SameFourth (S S' : SensorState) : Prop := ∀ a, isFourth a = true → S'.get a = S.get a

theorem SameFourth.refl (S : SensorState) : SameFourth S S := fun _ _ => rfl

theorem SameFourth.elements {S S' : SensorState} (h : SameFourth S S') :
    S'.acceleration.x3 = S.acceleration.x3 ∧ S'.angularVelocity.x3 = S.angularVelocity.x3 ∧
      S'.angle.x3 = S.angle.x3 ∧ S'.magneticField.x3 = S.magneticField.x3 :=
  ⟨FieldValue.float.inj (h (.acceleration 3) rfl), FieldValue.float.inj (h (.angularVelocity 3) rfl),
    FieldValue.float.inj (h (.angle 3) rfl), FieldValue.int.inj (h (.magneticField 3) rfl)⟩

theorem sameFourth_applyWrites (lut : ScaleLut) (f : Frame) (c : Channel) (S : SensorState) :
    SameFourth S (applyWrites (channelWrites lut f c) S) := by
  intro a ha
  have hmem : a ∉ channelFields c := fun h => by simp [not_isFourth_of_mem_channelFields c a h] at ha
  exact get_applyWrites_channelWrites hmem lut f S

theorem SensorState.FourthAtReset.of_same {S S' : SensorState} (hS : S.FourthAtReset) (h : SameFourth S S') :
    S'.FourthAtReset := by
  obtain ⟨hacc, hgyro, hangle, hmag⟩ := h.elements
  exact ⟨hacc.trans hS.acceleration, hgyro.trans hS.angularVelocity, hangle.trans hS.angle,
    hmag.trans hS.magneticField⟩

theorem SensorState.FourthAtReset.reset : SensorState.reset.FourthAtReset := ⟨rfl, rfl, rfl, rfl⟩

/-! ## Every step -/

theorem Fdc.ValuesOk.retireFrame {s : Fdc} (hs : s.ValuesOk) (interval now : Nat) (f : Frame) :
    (retireFrame interval now f (decodePayload Config.scaleLut f) s).ValuesOk := by
  rcases retireFrame_decodePayload_cases interval now Config.scaleLut f s with ⟨o, -, e⟩ | ⟨c, -, e⟩ <;> rw [e]
  · exact { hs with }
  · exact
      { hs with
        sensorInts := hs.sensorInts.applyWrites f c
        sensorFourth := hs.sensorFourth.of_same (sameFourth_applyWrites _ f c _) }

theorem Fdc.ValuesOk.writeCtrl {s : Fdc} (hs : s.ValuesOk) (v : Word64) : (writeCtrl v s).ValuesOk := by
  refine { hs with snapInts := ?_, snapFourth := ?_ }
  all_goals rw [writeCtrl_snap]; split
  · exact hs.sensorInts
  · exact hs.snapInts
  · exact hs.sensorFourth
  · exact hs.snapFourth

/-- A byte at the tail is no value: the decoder alone writes SensorState (43_gate_apply.md R197). -/
theorem pushByte_values (cap : Option Nat) (b : Byte) (s : Fdc) :
    (pushByte cap b s).sensor = s.sensor ∧ (pushByte cap b s).snap = s.snap := by
  rcases pushByte_cases cap b s with ⟨-, e⟩ | ⟨-, -, e⟩ | ⟨-, -, e⟩ <;> rw [e] <;> exact ⟨rfl, rfl⟩

theorem extractFrames_values (mask : Byte) (s : Fdc) :
    (extractFrames mask s).sensor = s.sensor ∧ (extractFrames mask s).snap = s.snap := by
  rcases extractFrames_cases mask s with e | ⟨-, -, _, -, -, e⟩ <;> rw [e] <;> exact ⟨rfl, rfl⟩

theorem Fdc.ValuesOk.congr {s t : Fdc} (hs : s.ValuesOk) (h : t.sensor = s.sensor ∧ t.snap = s.snap) :
    t.ValuesOk := by
  obtain ⟨hsensor, hsnap⟩ := h
  exact ⟨hsensor ▸ hs.sensorInts, hsensor ▸ hs.sensorFourth, hsnap ▸ hs.snapInts, hsnap ▸ hs.snapFourth⟩

theorem Fdc.ValuesOk.reset : Fdc.reset.ValuesOk where
  sensorInts := .reset
  sensorFourth := .reset
  snapInts := .reset
  snapFourth := .reset

theorem Fdc.ValuesOk.effect {i : Instr} {s t : Fdc} (hs : s.ValuesOk) (h : Effect i s t) : t.ValuesOk := by
  cases h with
  | same => exact hs
  | push b _ => exact hs.congr (pushByte_values ..)
  | extract _ => exact hs.congr (extractFrames_values ..)
  | reset _ => exact Fdc.ValuesOk.reset
  | ctrl v _ => exact hs.writeCtrl v
  | frame now f rest _ _ => exact hs.retireFrame ..

/-- Settles O56: SensorState changes by write sets and RESET alone, and the snapshot by a copy of it. -/
theorem stepKeepsValueSets : Obligations.StepKeepsValueSets := fun _ _ hs h =>
  let ⟨_, he⟩ := exists_effect_of_step h
  hs.effect he

/-! ## Every instruction, well formed or not -/

theorem Effect.sameFourth {i : Instr} {s t : Fdc} (h : Effect i s t) :
    SameFourth s.sensor t.sensor ∨ (i = .reset ∧ t.sensor.FourthAtReset) := by
  cases h with
  | same => exact .inl (.refl _)
  | push b _ => exact .inl ((pushByte_values Config.bufCap b s).1 ▸ .refl _)
  | extract _ => exact .inl ((extractFrames_values Config.syncMask s).1 ▸ .refl _)
  | reset hi => exact .inr ⟨hi, .reset⟩
  | ctrl v _ => exact .inl (.refl _)
  | frame now f rest _ _ =>
    rcases retireFrame_decodePayload_cases Config.rateIntervalTicks now Config.scaleLut f s with
      ⟨o, -, e⟩ | ⟨c, -, e⟩ <;> rw [e]
    · exact .inl (.refl _)
    · exact .inl (sameFourth_applyWrites _ f c _)

/-- A term that no step decodes to (log 13) changes no field of SensorState: UNKNOWN of a known type applies nothing,
and a host access writes the control state at most. -/
theorem exec_sensor_of_not_wf {i : Instr} {s t : State} (hw : i.wf = false) (h : exec i s = .next t) :
    t.sensor = s.sensor := by
  cases i
  case unknown now sync typ p k =>
    cases h
    rcases frameStepOn_cases Config.rateIntervalTicks now (unknownFrame sync typ p k) .rejected s.toFdc with
      ⟨-, e⟩ | ⟨-, e⟩ <;> simp only [e]
    rcases retireFrame_cases Config.rateIntervalTicks now (unknownFrame sync typ p k) .rejected s.toFdc with
      ⟨-, e⟩ | ⟨_, _, hd, -⟩
    · rw [e]
      rfl
    · cases hd
  case rdReserved o =>
    cases h
    rfl
  case wrOther o v =>
    cases h
    unfold memWrite
    split <;> rfl
  all_goals cases hw

/-- Settles O30: by `Effect` where the instruction is well formed. -/
theorem fourthElementsNeverWritten : Obligations.FourthElementsNeverWritten := by
  intro i s t h
  have hsame : SameFourth s.sensor t.sensor ∨ (i = .reset ∧ t.sensor.FourthAtReset) := by
    cases hw : i.wf with
    | true => exact (exec_effect hw h).sameFourth
    | false => exact .inl (exec_sensor_of_not_wf hw h ▸ .refl _)
  exact hsame.imp_left SameFourth.elements

end Sys2Proof.Machine
end

section
/-! The shared temperature (10_state.md R27; 42_decode.md R161). -/

namespace Sys2Proof.Machine

/-- The types whose row has a temperature lane are 0x51 to 0x54. -/
theorem temperature_mem_channelFields_iff {b : Byte} {c : Channel} (h : channelOf b = some c) :
    .temperature ∈ channelFields c ↔ 0x51 ≤ b.toNat ∧ b.toNat ≤ 0x54 := by
  obtain ⟨c', hc', rfl⟩ : ∃ c', channelOf b = some c' ∧ b = c'.typeByte :=
    (channelOf_cases b).resolve_right fun ⟨hn, _⟩ => by simp [h] at hn
  obtain rfl : c = c' := Option.some.inj (h.symm.trans hc')
  cases c <;> decide

theorem scaleLane_hundredth (raw : Int) : scaleLane ⟨1, 100⟩ raw = rne64 raw 100 := by
  simp [scaleLane]

theorem applyWrites_temperature (f : Frame) (c : Channel) (S : SensorState) :
    (applyWrites (channelWrites Config.scaleLut f c) S).temperature =
      if .temperature ∈ channelFields c then rne64 f.half3.toInt 100 else S.temperature := by
  split
  case isTrue h =>
    cases c
    case acc | gyro | angle | mag => exact scaleLane_hundredth _
    all_goals exact absurd h (by decide)
  case isFalse h => exact FieldValue.float.inj (get_applyWrites_channelWrites h Config.scaleLut f S)

/-- Settles O31: an outcome other than Applied leaves SensorState alone, and Applied is the write set of the channel. -/
theorem temperatureComesFromMotionFrames : Obligations.TemperatureComesFromMotionFrames := by
  intro now s t f rest hb h
  have ht : t.toFdc = retireFrame Config.rateIntervalTicks now f (decodePayload Config.scaleLut f) s.toFdc := by
    cases h
    exact frameStepHead_cons _ _ _ _ _ _ hb
  rw [ht]
  rcases retireFrame_decodePayload_cases Config.rateIntervalTicks now Config.scaleLut f s.toFdc with
    ⟨o, ho, e⟩ | ⟨c, hc, e⟩ <;> rw [e]
  · have hcode : outcomeCode o ≠ 1 := by
      cases o
      case applied => exact absurd rfl ho
      all_goals decide
    exact (if_neg fun ⟨hlast, _⟩ => hcode hlast).symm
  · simp [applyWrites_temperature, outcomeCode, ← temperature_mem_channelFields_iff hc]

end Sys2Proof.Machine
end

section
/-! CNT_FRAMES stays balanced (10_state.md R37). -/

namespace Sys2Proof.Machine

/-- The sum of the four outcome counters. -/
def Counters.outcomes (c : Counters) : Word64 := c.cksum + c.unknown + c.applied + c.suppressed

theorem balanced_iff (s : Fdc) : s.Balanced ↔ s.cnt.frames = s.cnt.outcomes + BitVec.ofNat 64 s.batch.length := .rfl

theorem countOutcome_frames (o : FrameOutcome) (c : Counters) : (countOutcome o c).frames = c.frames := by
  cases o <;> rfl

theorem countOutcome_outcomes (o : FrameOutcome) (c : Counters) : (countOutcome o c).outcomes = c.outcomes + 1 := by
  cases o <;> simp only [countOutcome, Counters.outcomes] <;> ac_rfl

theorem Fdc.Balanced.pushByte {s : Fdc} (hs : s.Balanced) (cap : Option Nat) (b : Byte) :
    (pushByte cap b s).Balanced := by
  rcases pushByte_cases cap b s with ⟨-, e⟩ | ⟨-, -, e⟩ | ⟨-, -, e⟩ <;> rw [e] <;> exact hs

/-- EXTRACT counts the frames it puts into the batch, which was empty. -/
theorem Fdc.Balanced.extractFrames {s : Fdc} (hs : s.Balanced) (mask : Byte) : (extractFrames mask s).Balanced := by
  rcases extractFrames_cases mask s with e | ⟨-, hb, h, -, -, e⟩ <;> rw [e]
  case inl => exact hs
  case inr =>
    have hframes : s.cnt.frames = s.cnt.outcomes := by simpa [balanced_iff, hb] using hs
    rw [balanced_iff, sliceFrames_length]
    exact congrArg (· + BitVec.ofNat 64 (frameCount s.buf h)) hframes

/-- The FRAME step takes one frame from the batch and counts one outcome. -/
theorem Fdc.Balanced.recordOutcome {s : Fdc} (hs : s.Balanced) {f : Frame} {rest : List Frame}
    (hb : s.batch = f :: rest) (o : FrameOutcome) : (recordOutcome o { s with batch := s.batch.tail }).Balanced := by
  rw [balanced_iff] at hs ⊢
  calc (countOutcome o s.cnt).frames
      = s.cnt.outcomes + BitVec.ofNat 64 (rest.length + 1) := by rw [countOutcome_frames, hs, hb, List.length_cons]
    _ = s.cnt.outcomes + 1 + BitVec.ofNat 64 rest.length := by rw [BitVec.ofNat_add]; ac_rfl
    _ = (countOutcome o s.cnt).outcomes + BitVec.ofNat 64 s.batch.tail.length := by
      rw [countOutcome_outcomes, hb, List.tail_cons]

theorem Fdc.Balanced.retireFrame {s : Fdc} (hs : s.Balanced) {f : Frame} {rest : List Frame}
    (hb : s.batch = f :: rest) (interval now : Nat) (d : Decoded) : (retireFrame interval now f d s).Balanced := by
  rcases retireFrame_cases interval now f d s with ⟨-, e⟩ | ⟨t, w, -, -, e⟩ <;> rw [e]
  · exact hs.recordOutcome hb _
  · exact hs.recordOutcome hb .applied

theorem Fdc.Balanced.writeCtrl {s : Fdc} (hs : s.Balanced) {v : Word64} (hv : v.getLsbD 2 = false) :
    (writeCtrl v s).Balanced := by
  rw [balanced_iff, writeCtrl_cnt, hv]
  exact hs

theorem Fdc.Balanced.reset : Fdc.reset.Balanced := by
  rw [balanced_iff]
  decide

theorem Fdc.Balanced.effect {i : Instr} {s t : Fdc} (hs : s.Balanced)
    (hctrl : ∀ v, i = .wrCtrl v → v.getLsbD 2 = false) (h : Effect i s t) : t.Balanced := by
  cases h with
  | same => exact hs
  | push b _ => exact hs.pushByte ..
  | extract _ => exact hs.extractFrames _
  | reset _ => exact Fdc.Balanced.reset
  | ctrl v hi => exact hs.writeCtrl (hctrl v hi)
  | frame now f rest _ hb => exact hs.retireFrame hb ..

/-- Settles O59: each operation but the clearing of the counters keeps the balance. -/
theorem frameCountsStayBalanced : Obligations.FrameCountsStayBalanced := fun _ _ _ hw hctrl hs h =>
  hs.effect hctrl (exec_effect hw h)

end Sys2Proof.Machine
end

section
/-! The host window: which accesses are refused, what a read answers, and its bytes (20_memory.md R62, R65, R67,
R70, R71). -/

namespace Sys2Proof

/-! ## The decoder of host accesses, in the order of its tests -/

theorem decodeHost_of_width_ne {width : Nat} (hw : width ≠ 8) (off : Nat) (i : Instr) :
    decodeHost width off i = .error .hostWidth := if_pos hw

theorem decodeHost_of_misaligned {off : Nat} (ha : off % 8 ≠ 0) (i : Instr) :
    decodeHost 8 off i = .error .hostAlignment := by
  simp [decodeHost, ha]

theorem decodeHost_of_outside {off : Nat} (ha : off % 8 = 0) (ho : 0x400 ≤ off) (i : Instr) :
    decodeHost 8 off i = .error .hostOffset := by
  simp [decodeHost, ha, ho]

theorem decodeHost_of_defined {off : Nat} (ha : off % 8 = 0) (ho : off < 0x400) (i : Instr) :
    decodeHost 8 off i = .ok i := by
  simp [decodeHost, ha, ho]

/-- Bits 9:3 of a defined offset name it. -/
theorem offsetOf_ofNat_div {off : Nat} (ha : off % 8 = 0) (ho : off < 0x400) :
    offsetOf (BitVec.ofNat 7 (off / 8)) = off := by
  simp only [offsetOf, BitVec.toNat_ofNat]
  omega

end Sys2Proof

namespace Sys2Proof.Machine

/-! ## Fetch, decode, execute -/

theorem step_of_decode_ok {s t : State} {w : StepWord} {i : Instr} (hf : fetch s = (w, t)) (hd : decode w = .ok i) :
    step s = exec i t := by
  simp [step, hf, hd]

theorem step_of_decode_error {s t : State} {w : StepWord} {why : DecodeError} (hf : fetch s = (w, t))
    (hd : decode w = .error why) : step s = .refused (.rejected why) := by
  simp [step, hf, hd]

/-- The read an aligned offset selects answers the register map's value for that offset: the instruction's own offset
is the one that selects it. -/
theorem exec_decodeRead {off : Nat} (ha : off % 8 = 0) (ho : off < 0x400) (s : State) :
    exec (decodeRead off) s = hostRead off s := by
  have hreserved : exec (.rdReserved (BitVec.ofNat 7 (off / 8))) s = hostRead off s :=
    congrArg (hostRead · s) (offsetOf_ofNat_div ha ho)
  unfold decodeRead
  split
  case h_46 => exact hreserved
  all_goals rfl

/-- Settles O44: a defined read decodes to the row of its offset, whose meaning is the read of that offset. -/
theorem hostReadHasNoSideEffect : Obligations.HostReadHasNoSideEffect := by
  intro s off rest ha ho hp
  have hd : decode (.hostRead 8 off) = .ok (decodeRead off) := decodeHost_of_defined ha ho _
  rw [step_of_pending hp hd, exec_decodeRead ha ho]
  rfl

/-! ## The window byte by byte -/

theorem windowByte_add (s : Fdc) {off k : Nat} (ha : off % 8 = 0) (hk : k < 8) :
    windowByte s (off + k) = byteAt (memRead s off) k := by
  have hmod : (off + k) % 8 = k := by omega
  rw [windowByte, hmod, Nat.add_sub_cancel]

/-- Settles O48: each byte of the window is that byte of the register, and eight bytes make up a word. -/
theorem windowIsLittleEndian : Obligations.WindowIsLittleEndian := by
  intro s off ha
  refine ⟨fun k hk => windowByte_add s ha hk, ?_⟩
  have hzero : windowByte s off = byteAt (memRead s off) 0 := windowByte_add s (k := 0) ha (by decide)
  simp only [hzero, windowByte_add s ha, Nat.reduceLT, le64_byteAt]

/-! ## Which steps are run -/

/-- Settles O3: both kinds of access decode by `decodeHost`, and every instruction completes. -/
theorem hostAccessRefusedUnlessDefined : Obligations.HostAccessRefusedUnlessDefined := by
  intro s w rest width off hp hw
  have hf := fetch_of_pending hp
  obtain ⟨i, hd⟩ : ∃ i, decode w = decodeHost width off i := by
    rcases hw with rfl | ⟨v, rfl⟩
    · exact ⟨decodeRead off, rfl⟩
    · exact ⟨decodeWrite off v, rfl⟩
  refine ⟨fun hwidth => ?width, ?alignment, ?offset, ?defined⟩
  case width => exact step_of_decode_error hf (hd.trans (decodeHost_of_width_ne hwidth off i))
  case alignment =>
    rintro rfl ha
    exact step_of_decode_error hf (hd.trans (decodeHost_of_misaligned ha i))
  case offset =>
    rintro rfl ha ho
    exact step_of_decode_error hf (hd.trans (decodeHost_of_outside ha ho i))
  case defined =>
    rintro rfl ha ho
    rw [step_of_decode_ok hf (hd.trans (decodeHost_of_defined ha ho i))]
    exact exec_next i _

/-- Settles O7: a fixed word is fetched with that word taken, a free draw with the draw counted. -/
theorem stepRunsDecodedInstruction : Obligations.StepRunsDecodedInstruction := by
  refine fun s => ⟨fun w rest i hp hd => step_of_pending hp hd, fun hp => ?_⟩
  have hf := fetch_of_no_pending hp
  cases hd : decode (Config.environment s.drawn) with
  | ok i => exact step_of_decode_ok hf hd
  | error why => exact step_of_decode_error hf hd

end Sys2Proof.Machine
end

section
/-! The frame rows: the fields of a frame make up the frame again, a frame made of fields decodes to them, and the type
byte alone selects the row (30_encoding.md R92, R93, R95, R96). -/

namespace Sys2Proof

/-! ## Lanes of frames, and frames of lanes -/

@[simp] theorem sync_halvesFrame (sync typ : Byte) (a b c d : Half) (cks : Byte) :
    (halvesFrame sync typ a b c d cks).sync = sync := rfl

@[simp] theorem typ_halvesFrame (sync typ : Byte) (a b c d : Half) (cks : Byte) :
    (halvesFrame sync typ a b c d cks).typ = typ := rfl

@[simp] theorem cks_halvesFrame (sync typ : Byte) (a b c d : Half) (cks : Byte) :
    (halvesFrame sync typ a b c d cks).cks = cks := rfl

@[simp] theorem half0_halvesFrame (sync typ : Byte) (a b c d : Half) (cks : Byte) :
    (halvesFrame sync typ a b c d cks).half0 = a := le16_byteAt a

@[simp] theorem half1_halvesFrame (sync typ : Byte) (a b c d : Half) (cks : Byte) :
    (halvesFrame sync typ a b c d cks).half1 = b := le16_byteAt b

@[simp] theorem half2_halvesFrame (sync typ : Byte) (a b c d : Half) (cks : Byte) :
    (halvesFrame sync typ a b c d cks).half2 = c := le16_byteAt c

@[simp] theorem half3_halvesFrame (sync typ : Byte) (a b c d : Half) (cks : Byte) :
    (halvesFrame sync typ a b c d cks).half3 = d := le16_byteAt d

@[simp] theorem sync_wordsFrame (sync typ : Byte) (a b : Word32) (cks : Byte) :
    (wordsFrame sync typ a b cks).sync = sync := rfl

@[simp] theorem typ_wordsFrame (sync typ : Byte) (a b : Word32) (cks : Byte) :
    (wordsFrame sync typ a b cks).typ = typ := rfl

@[simp] theorem cks_wordsFrame (sync typ : Byte) (a b : Word32) (cks : Byte) :
    (wordsFrame sync typ a b cks).cks = cks := rfl

@[simp] theorem word0_wordsFrame (sync typ : Byte) (a b : Word32) (cks : Byte) :
    (wordsFrame sync typ a b cks).word0 = a := le32_byteAt a

@[simp] theorem word1_wordsFrame (sync typ : Byte) (a b : Word32) (cks : Byte) :
    (wordsFrame sync typ a b cks).word1 = b := le32_byteAt b

theorem halvesFrame_halves (f : Frame) :
    halvesFrame f.sync f.typ f.half0 f.half1 f.half2 f.half3 f.cks = f := by
  simp [halvesFrame, Frame.half0, Frame.half1, Frame.half2, Frame.half3]

theorem wordsFrame_words (f : Frame) : wordsFrame f.sync f.typ f.word0 f.word1 f.cks = f := by
  simp [wordsFrame, Frame.word0, Frame.word1, byteAt_le32]

theorem clockFrame_fields {f : Frame} (ht : f.typ = Channel.clock.typeByte) :
    clockFrame f.sync f.p2 f.p3 f.p4 f.p5 f.p6 f.p7 f.half3 f.cks = f := by
  simp [clockFrame, Frame.half3, ← ht]

theorem unknownFrame_fields (f : Frame) :
    unknownFrame f.sync f.typ (le64 f.p2 f.p3 f.p4 f.p5 f.p6 f.p7 f.p8 f.p9) f.cks = f := by
  simp [unknownFrame, byteAt_le64]

/-! ## The type byte -/

theorem channelOf_eq_some_iff (b : Byte) (c : Channel) : channelOf b = some c ↔ b = c.typeByte := by
  refine ⟨fun h => ?_, by rintro rfl; exact channelOf_typeByte c⟩
  rcases channelOf_cases b with ⟨d, hd, hb⟩ | ⟨hn, -⟩
  · obtain rfl : d = c := Option.some.inj (hd.symm.trans h)
    exact hb
  · cases hn.symm.trans h

theorem knownType_typeByte (c : Channel) : knownType c.typeByte = true := by cases c <;> rfl

theorem channelOf_eq_none {b : Byte} (h : knownType b = false) : channelOf b = none := by
  rcases channelOf_cases b with ⟨c, -, rfl⟩ | ⟨hn, -⟩
  · cases h.symm.trans (knownType_typeByte c)
  · exact hn

/-! ## Decoded frames -/

theorem decodeFrame_clockFrame (now : Nat) (sync yy month day hour minute second : Byte) (ms : Half) (cks : Byte) :
    decodeFrame now (clockFrame sync yy month day hour minute second ms cks) =
      .clock now sync yy month day hour minute second ms cks := by
  simp [decodeFrame, clockFrame, Frame.half3]

theorem decodeFrame_unknownFrame (now : Nat) (sync : Byte) {typ : Byte} (ht : knownType typ = false) (payload : Word64)
    (cks : Byte) :
    decodeFrame now (unknownFrame sync typ payload cks) = .unknown now sync typ payload cks := by
  simp [decodeFrame, unknownFrame, channelOf_eq_none ht]

/-- A type row's frame is that of its fields, and the UNKNOWN row's keeps the type byte, so no bit is dropped. -/
theorem encode_decodeFrame (now : Nat) (f : Frame) : encode (decodeFrame now f) = .frame now f.bytes := by
  rcases channelOf_cases f.typ with ⟨c, hc, ht⟩ | ⟨hn, -⟩
  · cases c
    case clock => simp [decodeFrame, hc, encode, clockFrame_fields ht]
    case press | lonlat => simp [decodeFrame, hc, encode, ← ht, wordsFrame_words]
    case acc | gyro | angle | mag | port | gpsv => simp [decodeFrame, hc, encode, ← ht, halvesFrame_halves]
  · simp [decodeFrame, hn, encode, unknownFrame_fields]

/-! ## The type byte in the 88-bit word -/

/-- Of the 88-bit word, the mask 0xFF00 keeps the type byte in its place and nothing else. -/
theorem word_and_typeMask (f : Frame) : f.word &&& 0xFF00 = BitVec.setWidth 88 f.typ <<< 8 := by
  have hmask : ((0xFF00 : Nat) : BitVec 88) = BitVec.setWidth 88 (BitVec.allOnes 8) <<< 8 := by decide
  rw [hmask, Frame.word]
  ext j hj
  rw [← BitVec.getLsbD_eq_getElem, ← BitVec.getLsbD_eq_getElem]
  simp only [BitVec.getLsbD_and, BitVec.getLsbD_shiftLeft, BitVec.getLsbD_setWidth, BitVec.getLsbD_append,
    BitVec.getLsbD_allOnes]
  have hword : j - 8 < 88 := by omega
  by_cases hlow : j < 8
  · simp [hlow]
  · by_cases hhigh : j - 8 < 8
    · simp [hlow, hhigh, hj, hword]
    · have htyp : f.typ.getLsbD (j - 8) = false := BitVec.getLsbD_of_ge f.typ _ (by omega)
      simp [hlow, hhigh, htyp]

theorem shifted_byte_inj {a b : Byte} : BitVec.setWidth 88 a <<< 8 = BitVec.setWidth 88 b <<< 8 ↔ a = b := by
  refine ⟨fun h => ?_, by rintro rfl; rfl⟩
  have hbyte : ∀ v : Byte, byteAt (BitVec.setWidth 88 v <<< 8) 1 = v := by
    intro v
    ext j hj
    rw [← BitVec.getLsbD_eq_getElem, byteAt_getLsbD]
    simp [hj, show 8 + j < 88 by omega]
  rw [← hbyte a, h, hbyte b]

/-- Settles O5: the masked word is the type byte in its place, and the type byte names the channel. -/
theorem typeByteSelectsRow : Obligations.TypeByteSelectsRow := by
  intro f t
  rw [word_and_typeMask, shifted_byte_inj, channelOf_eq_some_iff]

end Sys2Proof
end

section
/-! Decoding and encoding undo each other (30_encoding.md R92, R95, R103). -/

namespace Sys2Proof

/-! ## Offsets in bits 9:3 -/

theorem offsetOf_mod (o : BitVec 7) : offsetOf o % 8 = 0 := Nat.mul_mod_right 8 o.toNat

theorem offsetOf_lt (o : BitVec 7) : offsetOf o < 0x400 := by
  have := o.isLt
  simp only [offsetOf]
  omega

theorem ofNat_offsetOf_div (o : BitVec 7) : BitVec.ofNat 7 (offsetOf o / 8) = o := by
  simp [offsetOf]

theorem offsetOf_ne_zero {o : BitVec 7} (h : o ≠ 0) : offsetOf o ≠ 0 := fun hz =>
  h (BitVec.eq_of_toNat_eq (by simpa [offsetOf] using hz))

theorem decodeHost_offsetOf (o : BitVec 7) (i : Instr) : decodeHost 8 (offsetOf o) i = .ok i :=
  decodeHost_of_defined (offsetOf_mod o) (offsetOf_lt o) i

/-! ## The host rows -/

/-- No named register stands at a reserved offset. -/
theorem decodeRead_of_reserved {off : Nat} (h : reservedOffset off = true) :
    decodeRead off = .rdReserved (BitVec.ofNat 7 (off / 8)) := by
  unfold decodeRead
  split
  case h_46 => rfl
  all_goals exact absurd h (by decide)

theorem decodeWrite_of_ne_zero {off : Nat} (h : off ≠ 0) (data : Word64) :
    decodeWrite off data = .wrOther (BitVec.ofNat 7 (off / 8)) data := by
  unfold decodeWrite
  split
  · exact absurd rfl h
  · rfl

theorem encode_decodeRead {off : Nat} (ha : off % 8 = 0) (ho : off < 0x400) :
    encode (decodeRead off) = .hostRead 8 off := by
  have hreserved : encode (.rdReserved (BitVec.ofNat 7 (off / 8))) = .hostRead 8 off :=
    congrArg (StepWord.hostRead 8) (offsetOf_ofNat_div ha ho)
  unfold decodeRead
  split
  case h_46 => exact hreserved
  all_goals rfl

theorem encode_decodeWrite {off : Nat} (ha : off % 8 = 0) (ho : off < 0x400) (data : Word64) :
    encode (decodeWrite off data) = .hostWrite 8 off data := by
  unfold decodeWrite
  split
  · rfl
  · exact congrArg (StepWord.hostWrite 8 · data) (offsetOf_ofNat_div ha ho)

/-! ## Both round trips -/

theorem decode_frame_bytes (now : Nat) (f : Frame) : decode (.frame now f.bytes) = .ok (decodeFrame now f) := rfl

/-- Settles O1: a frame row by its kind of frame, a fallback row by its well-formedness, and every other row has one
word. -/
theorem decodeUndoesEncode : Obligations.DecodeUndoesEncode := by
  intro i hw
  cases i
  case clock => rw [encode, decode_frame_bytes, decodeFrame_clockFrame]
  case acc | gyro | angle | mag | port | gpsv | press | lonlat =>
    simp [encode, decode_frame_bytes, decodeFrame]
  case unknown now sync typ payload cks =>
    have ht : knownType typ = false := by simpa [Instr.wf] using hw
    rw [encode, decode_frame_bytes, decodeFrame_unknownFrame now sync ht]
  case rdReserved o =>
    rw [encode, decode, decodeHost_offsetOf, decodeRead_of_reserved hw, ofNat_offsetOf_div]
  case wrOther o data =>
    have ho : o ≠ 0 := by simpa [Instr.wf] using hw
    rw [encode, decode, decodeHost_offsetOf, decodeWrite_of_ne_zero (offsetOf_ne_zero ho), ofNat_offsetOf_div]
  all_goals rfl

/-- Settles O2: the frame, the offset and the operands of an accepted step are all found again in its instruction. -/
theorem encodeUndoesDecode : Obligations.EncodeUndoesDecode := by
  intro w i h
  refine ⟨wf_of_decode h, ?_⟩
  cases w with
  | frame now bytes =>
    cases hf : Frame.ofBytes? bytes with
    | none => simp [decode, hf] at h
    | some f =>
      obtain rfl := ofBytes_eq_some hf
      cases h
      exact encode_decodeFrame now f
  | hostRead width off =>
    obtain ⟨rfl, rfl, o, rfl⟩ := decodeHost_ok h
    exact encode_decodeRead (offsetOf_mod o) (offsetOf_lt o)
  | hostWrite width off data =>
    obtain ⟨rfl, rfl, o, rfl⟩ := decodeHost_ok h
    exact encode_decodeWrite (offsetOf_mod o) (offsetOf_lt o) data
  | push b => cases h; rfl
  | extract => cases h; rfl
  | frameStep now => cases h; rfl
  | reset => cases h; rfl

/-- Settles O4: each word evaluates to its instruction. -/
theorem specWordsDecode : Obligations.SpecWordsDecode := ⟨rfl, rfl, rfl, rfl, rfl, rfl, rfl⟩

end Sys2Proof
end

section
/-! The frames FRAME.RAW and FRAME.BADSUM and their checksum (30_encoding.md R102; 41_checksum.md R150). -/

namespace Sys2Proof.Machine

/-- The checksum test compares the last byte with `cksOf` the ten before it. -/
theorem valid_iff_cks_eq (f : Frame) : valid f = true ↔ f.cks = cksOf (f.bytes.take 10) := by
  have hsum : (cksOf (f.bytes.take 10)).toNat = frameSum f % 256 := BitVec.toNat_ofNat ..
  rw [valid, beq_iff_eq, ← hsum, BitVec.toNat_inj, eq_comm]

theorem byte_add_one_ne (b : Byte) : b + 1 ≠ b := by bv_omega

/-- Settles O36: both kinds of frame hold the ten bytes the checksum is taken over; FRAME.BADSUM misses it by one. -/
theorem rawFramesAreValid : Obligations.RawFramesAreValid := by
  intro t p0 p1 p2 p3 p4 p5 p6 p7
  refine ⟨⟨_, rfl, rfl, ?raw⟩, ⟨_, rfl, rfl, ?badSum⟩⟩
  case raw => exact (valid_iff_cks_eq _).2 rfl
  case badSum =>
    rw [← Bool.not_eq_true, valid_iff_cks_eq]
    exact byte_add_one_ne _

end Sys2Proof.Machine
end

section
/-! Reserved offsets and reserved bits of the host window (30_encoding.md R105, R106, R109; 44_host.md R221, R227). -/

namespace Sys2Proof.Machine

/-! ## Reserved offsets -/

theorem snapField_of_reserved {off : Nat} (h : reservedOffset off = true) : snapField off = none := by
  unfold snapField
  split
  case h_36 => rfl
  all_goals exact absurd h (by decide)

theorem memRead_of_reserved (s : Fdc) {off : Nat} (h : reservedOffset off = true) : memRead s off = 0 := by
  unfold memRead
  split
  case h_11 => rw [snapField_of_reserved h]
  all_goals exact absurd h (by decide)

theorem exec_rdReserved {o : BitVec 7} (h : reservedOffset (offsetOf o) = true) (s : State) :
    exec (.rdReserved o) s = .next { s with hRdata := 0 } := by
  show hostRead (offsetOf o) s = _
  rw [hostRead_eq, memRead_of_reserved s.toFdc h]

theorem exec_wrOther {o : BitVec 7} (h : o ≠ 0) (v : Word64) (s : State) : exec (.wrOther o v) s = .next s := by
  show onFdc (memWrite (offsetOf o) v) s = _
  rw [onFdc_eq, memWrite_other _ v s.toFdc (offsetOf_ne_zero h)]

/-! ## Reserved bits -/

theorem ctrlWord_reserved (s : Fdc) : ctrlWord s >>> 1 = 0 := by
  unfold ctrlWord
  cases s.enable <;> rfl

/-- A field shifted into place meets no bit of a mask that is clear where the field stands. -/
theorem shifted_field_and_eq_zero {n k : Nat} {m : Word64} (v : BitVec n) (h : ∀ j < n, m.getLsbD (k + j) = false) :
    (v.setWidth 64 <<< k) &&& m = 0 := by
  ext i hi
  by_cases hk : i < k
  · simp [hk]
  · by_cases hn : i - k < n
    · have hm := h (i - k) hn
      rw [Nat.add_sub_cancel' (by omega)] at hm
      simp [← BitVec.getLsbD_eq_getElem, hm]
    · have hv : v.getLsbD (i - k) = false := BitVec.getLsbD_of_ge v _ (by omega)
      simp [hv]

theorem bit64_eq_setWidth (b : Bool) : bit64 b = (BitVec.ofBool b).setWidth 64 := by cases b <;> rfl

theorem statusWord_reserved (s : Fdc) : statusWord s &&& 0xFE00F0E0 = 0 := by
  have hlevel : (BitVec.ofNat 64 (bufLevel s) <<< 32) &&& 0xFE00F0E0 = 0 := by
    simpa using shifted_field_and_eq_zero (n := 64) (k := 32) (m := 0xFE00F0E0) (BitVec.ofNat 64 (bufLevel s))
      (by decide)
  have hvalid : (s.chValid.setWidth 64 <<< 16) &&& 0xFE00F0E0 = 0 := shifted_field_and_eq_zero _ (by decide)
  have hlast : (s.lastOutcome.setWidth 64 <<< 8) &&& 0xFE00F0E0 = 0 := shifted_field_and_eq_zero _ (by decide)
  have hflag : ∀ (b : Bool) (k : Nat), k < 5 → (bit64 b <<< k) &&& 0xFE00F0E0 = 0 := by
    intro b k hk
    rw [bit64_eq_setWidth]
    refine shifted_field_and_eq_zero _ fun j hj => ?_
    obtain rfl : j = 0 := by omega
    interval_cases k <;> rfl
  have hbusy : bit64 (busy s) &&& 0xFE00F0E0 = 0 := by simpa using hflag (busy s) 0 (by decide)
  simp only [statusWord, BitVec.and_or_distrib_right, hlevel, hvalid, hlast, hflag, hbusy, Nat.reduceLT, BitVec.or_self]

/-- A write of CTRL looks at bits 3:0 only. -/
theorem writeCtrl_and_low (v : Word64) (s : Fdc) : writeCtrl (v &&& 0xF) s = writeCtrl v s := by
  simp [writeCtrl]

theorem exec_wrCtrl (v : Word64) (s : State) :
    exec (.wrCtrl v) s = .next { s with toFdc := writeCtrl v s.toFdc } := rfl

/-- Settles O43, offset by offset and register by register. -/
theorem reservedReadsZeroAndIgnoresWrites : Obligations.ReservedReadsZeroAndIgnoresWrites := by
  refine ⟨fun o v s h => ?offsets, fun s t h => ?ctrlRead, fun s t h => ?statusRead, fun v s => ?ctrlWrite,
    fun v s => ?statusWrite⟩
  case offsets =>
    have hr : reservedOffset (offsetOf o) = true := by simpa [reservedOffset, offsetOf_mod] using h
    have ho : o ≠ 0 := by
      rintro rfl
      exact absurd hr (by decide)
    exact ⟨exec_rdReserved hr s, exec_wrOther ho v s⟩
  case ctrlRead =>
    cases h
    exact ctrlWord_reserved s.toFdc
  case statusRead =>
    cases h
    exact statusWord_reserved s.toFdc
  case ctrlWrite => rw [exec_wrCtrl, exec_wrCtrl, writeCtrl_and_low]
  case statusWrite => exact exec_wrOther (by decide) v s

end Sys2Proof.Machine
end

section
/-! The buffer under PUSH, EXTRACT and the other steps: what enters it, what leaves it, and when EXTRACT takes nothing
(40_extract.md R121-R131). -/

namespace Sys2Proof.Machine

/-! ## PUSH, and what leaves the buffer -/

/-- Settles O9: `pushByte` makes the statement's two tests. -/
theorem pushAppendsAtTail : Obligations.PushAppendsAtTail := by
  intro b s
  show onFdc (pushByte Config.bufCap b) s = _
  rw [onFdc_eq]
  rcases pushByte_cases Config.bufCap b s.toFdc with ⟨he, e⟩ | ⟨he, hc, e⟩ | ⟨he, hc, e⟩
  · rw [e, if_pos he]
  · rw [e, if_neg (by simp [he]), if_pos hc]
  · rw [e, if_neg (by simp [he]), if_neg hc]

theorem tailGain_of_ne_push {i : Instr} (hp : ∀ b, i ≠ .push b) (s : Fdc) : tailGain i s = [] := by
  cases i
  case push b => exact absurd rfl (hp b)
  all_goals rfl

theorem headLoss_of_ne {i : Instr} (hp : ∀ b, i ≠ .push b) (he : i ≠ .extract) (hr : i ≠ .reset) (s : Fdc) :
    headLoss i s = 0 := by
  cases i
  case push b => exact absurd rfl (hp b)
  case extract => exact absurd rfl he
  case reset => exact absurd rfl hr
  all_goals rfl

/-- But for PUSH and RESET a step leaves a tail of the buffer. -/
theorem exec_buf_eq_drop {i : Instr} {s t : State} (h : exec i s = .next t) (hp : ∀ b, i ≠ .push b)
    (hr : i ≠ .reset) : t.buf = s.buf.drop (headLoss i s.toFdc) := by
  rw [steps_buf ⟨s, t, rfl, rfl, h⟩ hr, tailGain_of_ne_push hp, List.append_nil]

/-- Any step but PUSH, EXTRACT and RESET leaves the buffer as it is (40_extract.md R122). -/
theorem exec_buf_eq {i : Instr} {s t : State} (h : exec i s = .next t) (hp : ∀ b, i ≠ .push b)
    (he : i ≠ .extract) (hr : i ≠ .reset) : t.buf = s.buf := by
  rw [exec_buf_eq_drop h hp hr, headLoss_of_ne hp he hr, List.drop_zero]

/-- Settles O12: a PUSH by its three cases; EXTRACT drops what it consumes, RESET the whole buffer. -/
theorem bytesLeaveOnlyAtHead : Obligations.BytesLeaveOnlyAtHead := by
  intro i s t h
  constructor
  · rintro b rfl
    cases h
    rcases pushByte_cases Config.bufCap b s.toFdc with ⟨-, e⟩ | ⟨-, -, e⟩ | ⟨-, -, e⟩ <;> simp [e]
  · intro hp hne
    by_cases hr : i = .reset
    · subst hr
      cases h
      exact ⟨.inr rfl, s.buf.length, List.drop_length.symm⟩
    · have he : i = .extract := by_contra fun he => hne (exec_buf_eq h hp he hr)
      exact ⟨.inl he, _, exec_buf_eq_drop h hp hr⟩

/-! ## The scan on the bytes alone -/

theorem scan_eq_some_iff_syncPairAt (buf : List Byte) (h : Nat) :
    scan Config.syncMask buf = some h ↔ syncPairAt buf h ∧ ∀ j, j < h → ¬ syncPairAt buf j := by
  simp only [scan_eq_some_iff, ← Bool.not_eq_true, isSync_iff_syncPairAt]

/-- A sync pair that ends within the first part stands in the first part. -/
theorem syncPairAt_of_append {buf new : List Byte} {j : Nat} (hj : j + 1 < buf.length)
    (h : syncPairAt (buf ++ new) j) : syncPairAt buf j := by
  obtain ⟨h55, c, hc, hmask⟩ := h
  rw [List.getElem?_append_left (by omega)] at h55
  rw [List.getElem?_append_left hj] at hc
  exact ⟨h55, c, hc, hmask⟩

theorem syncPairAt_lt {buf : List Byte} {j : Nat} (h : syncPairAt buf j) : j + 1 < buf.length := by
  obtain ⟨-, c, hc, -⟩ := h
  exact (List.getElem?_eq_some_iff.1 hc).1

/-! ## EXTRACT -/

/-- No sync index has a whole frame from it on (40_extract.md R126). -/
def NoWholeFrame (buf : List Byte) : Prop := ∀ j, syncPairAt buf j → buf.length < j + 11

/-- EXTRACT takes nothing where there is no whole frame, enabled or not. -/
theorem extractFrames_of_noWholeFrame {s : Fdc} (hno : NoWholeFrame s.buf) : extractFrames Config.syncMask s = s := by
  rcases extractFrames_cases Config.syncMask s with e | ⟨-, -, h, hs, hc, -⟩
  · exact e
  · have hlt := hno h ((scan_eq_some_iff_syncPairAt _ _).1 hs).1
    exact absurd (Nat.div_eq_of_lt (show s.buf.length - h < 11 by omega)) hc

theorem extractEnabled_iff (s : Fdc) : extractEnabled s = true ↔ s.enable = true ∧ s.batch = [] := by
  simp [extractEnabled]

theorem extractFrames_of_not_enabled (mask : Byte) {s : Fdc} (h : s.enable = false ∨ s.batch ≠ []) :
    extractFrames mask s = s := by
  rcases extractFrames_cases mask s with e | ⟨he, hb, -⟩
  · exact e
  · simp [he, hb] at h

/-- Where an enabled EXTRACT changes nothing there is no whole frame: it would have consumed bytes. -/
theorem noWholeFrame_of_extractFrames_eq {s : Fdc} (he : s.enable = true) (hb : s.batch = [])
    (h : extractFrames Config.syncMask s = s) : NoWholeFrame s.buf := by
  intro j hj
  by_contra hlt
  have hpos := headLoss_extract_pos ((extractEnabled_iff s).2 ⟨he, hb⟩) hj (by omega)
  simp [headLoss, h] at hpos

/-- EXTRACT, enabled, with a whole frame from the least sync index on (40_extract.md R127). -/
theorem extractFrames_of_least {s : Fdc} (he : s.enable = true) (hb : s.batch = []) {h : Nat}
    (hs : syncPairAt s.buf h) (hleast : ∀ j, j < h → ¬ syncPairAt s.buf j) (hlen : h + 11 ≤ s.buf.length) :
    extractFrames Config.syncMask s = { s with
      batch := sliceFrames s.buf h ((s.buf.length - h) / 11)
      buf := s.buf.drop (h + 11 * ((s.buf.length - h) / 11))
      cnt := { s.cnt with
        noise := s.cnt.noise + BitVec.ofNat 64 h
        frames := s.cnt.frames + BitVec.ofNat 64 ((s.buf.length - h) / 11) }
      sticky := { s.sticky with noise := s.sticky.noise || decide (0 < h) } } := by
  rcases extractFrames_cases Config.syncMask s with e | ⟨-, -, k, hk, -, e⟩
  · exact absurd (noWholeFrame_of_extractFrames_eq he hb e h hs) (by omega)
  · obtain rfl : k = h := Option.some.inj (hk.symm.trans ((scan_eq_some_iff_syncPairAt _ _).2 ⟨hs, hleast⟩))
    exact e

/-- The frames sliced are the bytes from `h` on, eleven to a frame. -/
theorem sliceFrames_bytes (buf : List Byte) (h count : Nat) (hlen : h + 11 * count ≤ buf.length) :
    (sliceFrames buf h count).flatMap Frame.bytes = (buf.drop h).take (11 * count) := by
  induction count with
  | zero => rfl
  | succ n ih =>
    have hsnoc : sliceFrames buf h (n + 1) = sliceFrames buf h n ++ [frameAt buf (h + 11 * n)] := by
      simp [sliceFrames, List.range_succ, Config.frameLen]
    rw [hsnoc, List.flatMap_append, ih (by omega), List.flatMap_singleton, frameAt_bytes _ _ (by omega), Nat.mul_succ,
      List.take_add, List.drop_drop]

theorem exec_extract (s : State) :
    exec .extract s = .next { s with toFdc := extractFrames Config.syncMask s.toFdc } := rfl

theorem exec_extract_eq_self {s : State} (h : extractFrames Config.syncMask s.toFdc = s.toFdc) :
    exec .extract s = .next s := by
  rw [exec_extract, h]

/-- Settles O10: the least sync index decides, and the frames are slices of the buffer. -/
theorem extractFollowsItsRule : Obligations.ExtractFollowsItsRule := by
  intro s he hb
  refine ⟨fun hnone => ?noSync, fun h hs hleast => ⟨fun hshort => ?short, fun hlen => ?run⟩⟩
  case noSync => exact exec_extract_eq_self (extractFrames_of_noWholeFrame fun j hj => absurd hj (hnone j))
  case short =>
    refine exec_extract_eq_self (extractFrames_of_noWholeFrame fun j hj => ?_)
    have hle : h ≤ j := Nat.le_of_not_lt fun hlt => hleast j hlt hj
    omega
  case run =>
    refine ⟨sliceFrames s.buf h ((s.buf.length - h) / 11), ?_, sliceFrames_length .., sliceFrames_bytes _ _ _ ?_⟩
    · rw [exec_extract, extractFrames_of_least he hb hs hleast hlen]
    · have := Nat.mul_div_le (s.buf.length - h) 11
      omega

/-! ## Runs -/

theorem after_of_exec {i : Instr} {s t : State} (h : exec i s = .next t) : after i s = t := by
  simp [after, h]

theorem exec_after (i : Instr) (s : State) : exec i s = .next (after i s) := by
  obtain ⟨t, h⟩ := exec_next i s
  rw [after_of_exec h, h]

theorem afterAll_append (is js : List Instr) (s : State) : afterAll (is ++ js) s = afterAll js (afterAll is s) := by
  induction is generalizing s with
  | nil => rfl
  | cons i is ih => exact ih (after i s)

/-- Without a whole frame, nothing but PUSH and RESET changes the buffer. -/
theorem after_buf_of_noWholeFrame {i : Instr} {s : State} (hno : NoWholeFrame s.buf) (hr : i ≠ .reset)
    (hp : ∀ b, i ≠ .push b) : (after i s).buf = s.buf := by
  by_cases he : i = .extract
  · subst he
    exact congrArg Fdc.buf (extractFrames_of_noWholeFrame hno)
  · exact exec_buf_eq (exec_after i s) hp he hr

theorem afterAll_buf_of_noWholeFrame {is : List Instr} {s : State} (hno : NoWholeFrame s.buf)
    (his : ∀ i ∈ is, i ≠ .reset ∧ ∀ b, i ≠ .push b) : (afterAll is s).buf = s.buf := by
  induction is generalizing s with
  | nil => rfl
  | cons i is ih =>
    obtain ⟨⟨hr, hp⟩, his⟩ := List.forall_mem_cons.1 his
    have hbuf := after_buf_of_noWholeFrame hno hr hp
    exact (ih (hbuf ▸ hno) his).trans hbuf

/-- Settles O11: that the EXTRACT changed nothing is a fact about the buffer alone, which stays. -/
theorem failedExtractIsIdempotent : Obligations.FailedExtractIsIdempotent := by
  intro s is he hb h his
  have hno : NoWholeFrame s.buf :=
    noWholeFrame_of_extractFrames_eq he hb (congrArg State.toFdc (Host.Outcome.next.inj h))
  have hbuf := afterAll_buf_of_noWholeFrame hno his
  exact ⟨hbuf, exec_extract_eq_self (extractFrames_of_noWholeFrame (hbuf ▸ hno))⟩

end Sys2Proof.Machine
end

section
/-! Steps that are not enabled, and the FRAME steps that empty a batch (43_gate_apply.md R195; 44_host.md R231;
60_exceptions.md R254). -/

namespace Sys2Proof.Machine

/-! ## Steps that are not enabled -/

theorem exec_step (now : Nat) (s : State) : exec (.step now) s =
    .next { s with toFdc := frameStepHead Config.rateIntervalTicks Config.scaleLut now s.toFdc } := rfl

theorem exec_step_of_empty (now : Nat) {s : State} (hb : s.batch = []) : exec (.step now) s = .next s := by
  rw [exec_step, frameStepHead_nil _ _ _ _ hb]

theorem exec_decodeFrame_of_not_head (now : Nat) {f : Frame} {s : State} (hf : s.batch.head? ≠ some f) :
    exec (decodeFrame now f) s = .next s := by
  rw [exec_decodeFrame, onFdc_eq, frameStepOn, if_neg hf]

theorem exec_extract_of_not_enabled {s : State} (h : s.enable = false ∨ s.batch ≠ []) : exec .extract s = .next s :=
  exec_extract_eq_self (extractFrames_of_not_enabled _ h)

/-- Settles O26: each of the three operations tests whether it is enabled. -/
theorem disabledStepsDoNotHappen : Obligations.DisabledStepsDoNotHappen :=
  ⟨fun now _ hb => exec_step_of_empty now hb, fun now _ _ hf => exec_decodeFrame_of_not_head now hf,
    fun _ h => exec_extract_of_not_enabled h⟩

/-! ## FRAME steps in a row -/

/-- A FRAME step takes the head of the batch, and leaves the buffer and ENABLE. -/
theorem after_step_parts (now : Nat) (s : State) : (after (.step now) s).batch = s.batch.tail ∧
    (after (.step now) s).buf = s.buf ∧ (after (.step now) s).enable = s.enable := by
  refine ⟨?_, frameStepHead_buf now s.toFdc, steps_enable ⟨s, _, rfl, rfl, rfl⟩ (.inr (.inr ⟨now, rfl⟩))⟩
  cases hb : s.batch with
  | nil => rw [after_of_exec (exec_step_of_empty now hb), hb, List.tail_nil]
  | cons f rest =>
    have htakes : takesFrame (.step now) s.toFdc = true := by simp [takesFrame, encode, frameEnabled, hb]
    rw [takesFrame_batch ⟨s, _, rfl, rfl, exec_after _ s⟩ htakes, hb]

theorem afterAll_steps_parts (nows : List Nat) (s : State) :
    (afterAll (nows.map .step) s).batch = s.batch.drop nows.length ∧
    (afterAll (nows.map .step) s).buf = s.buf ∧ (afterAll (nows.map .step) s).enable = s.enable := by
  induction nows generalizing s with
  | nil => exact ⟨rfl, rfl, rfl⟩
  | cons now nows ih =>
    obtain ⟨hbatch, hbuf, henable⟩ := after_step_parts now s
    obtain ⟨ihbatch, ihbuf, ihenable⟩ := ih (after (.step now) s)
    refine ⟨ihbatch.trans ?_, ihbuf.trans hbuf, ihenable.trans henable⟩
    rw [hbatch, List.drop_tail, List.length_cons]

theorem afterAll_steps_batch_nil {nows : List Nat} {s : State} (h : s.batch.length ≤ nows.length) :
    (afterAll (nows.map .step) s).batch = [] := by
  obtain ⟨hbatch, -, -⟩ := afterAll_steps_parts nows s
  rw [hbatch, List.drop_eq_nil_of_le h]

/-- Settles O52: each STEP takes one frame, and nothing the PARSER does starts it again. -/
theorem stoppedParserDrainsItsBatch : Obligations.StoppedParserDrainsItsBatch := by
  intro s nows he hlen
  obtain ⟨-, hbuf, henable⟩ := afterAll_steps_parts nows s
  have hempty : (afterAll (nows.map .step) s).batch = [] := afterAll_steps_batch_nil hlen.ge
  have hstopped := henable.trans he
  exact ⟨exec_extract_of_not_enabled (.inl he), hempty, hstopped, hbuf, exec_extract_of_not_enabled (.inl hstopped),
    fun now => exec_step_of_empty now hempty⟩

end Sys2Proof.Machine
end

section
/-! A clean byte stream, cut and interleaved in any way, gives the frames it is made of (40_extract.md R133). The
invariant of the run is that the buffer and the bytes still to come are noise without a sync index and then the frames
not yet sliced; EXTRACT alone moves frames out of it. -/

namespace Sys2Proof.Machine

/-! ## Frames and their bytes -/

theorem length_flatMap_bytes (fs : List Frame) : (fs.flatMap Frame.bytes).length = 11 * fs.length := by
  induction fs with
  | nil => rfl
  | cons f fs ih =>
    have hf : f.bytes.length = 11 := rfl
    rw [List.flatMap_cons, List.length_append, ih, hf, List.length_cons]
    omega

theorem flatMap_bytes_inj {fs gs : List Frame} (h : fs.flatMap Frame.bytes = gs.flatMap Frame.bytes) : fs = gs := by
  induction fs generalizing gs with
  | nil =>
    cases gs with
    | nil => rfl
    | cons g gs => cases h
  | cons f fs ih =>
    cases gs with
    | nil => cases h
    | cons g gs =>
      obtain ⟨hbytes, hrest⟩ := List.append_inj h rfl
      have hfg : f = g := Option.some.inj (congrArg Frame.ofBytes? hbytes)
      rw [hfg, ih hrest]

/-! ## The stream still to be sliced -/

/-- The machine is started, and its buffer followed by `todo` is `noise` and then `frames`: each frame begins with a sync
pattern, and no sync index stands in the noise. -/
structure StreamLeft (s : Fdc) (todo noise : List Byte) (frames : List Frame) : Prop where
  enable : s.enable = true
  sync : ∀ f ∈ frames, f.sync = 0x55 ∧ f.typ &&& 0x50 = 0x50
  clean : ∀ j, j < noise.length → ¬ syncPairAt (noise ++ frames.flatMap Frame.bytes) j
  bytes : s.buf ++ todo = noise ++ frames.flatMap Frame.bytes

namespace StreamLeft

variable {s t : Fdc} {todo noise : List Byte} {frames : List Frame}

theorem congr (h : StreamLeft s todo noise frames) (henable : t.enable = s.enable) (hbuf : t.buf = s.buf) :
    StreamLeft t todo noise frames :=
  { h with enable := henable.trans h.enable, bytes := hbuf ▸ h.bytes }

theorem length_eq (h : StreamLeft s todo noise frames) :
    s.buf.length + todo.length = noise.length + 11 * frames.length := by
  simpa only [List.length_append, length_flatMap_bytes] using congrArg List.length h.bytes

/-- The buffer has no sync index in the noise either, of which it is a part. -/
theorem noise_le_of_syncPairAt (h : StreamLeft s todo noise frames) {j : Nat} (hj : syncPairAt s.buf j) :
    noise.length ≤ j :=
  Nat.le_of_not_lt fun hlt => h.clean j hlt (h.bytes ▸ syncPairAt_append todo hj)

theorem noWholeFrame (h : StreamLeft s todo noise frames) (hshort : s.buf.length < noise.length + 11) :
    NoWholeFrame s.buf := fun j hj => by
  have hle := h.noise_le_of_syncPairAt hj
  omega

/-- Right after the noise stands the first frame. -/
theorem syncPairAt_noise (h : StreamLeft s todo noise frames) (hlen : noise.length + 11 ≤ s.buf.length) :
    syncPairAt s.buf noise.length := by
  refine syncPairAt_of_append (new := todo) (by omega) ?_
  cases hfs : frames with
  | nil =>
    have hlen' := h.length_eq
    rw [hfs, List.length_nil] at hlen'
    omega
  | cons f rest =>
    obtain ⟨h55, htyp⟩ := h.sync f (by simp [hfs])
    rw [h.bytes, hfs]
    exact ⟨by simp [Frame.bytes, h55], f.typ, by simp [Frame.bytes], htyp⟩

/-- The frames EXTRACT slices are the next ones of the stream, and the others stay to be sliced. -/
theorem split_frames (h : StreamLeft s todo noise frames) {c : Nat} (hc : noise.length + 11 * c ≤ s.buf.length) :
    sliceFrames s.buf noise.length c = frames.take c ∧
    s.buf.drop (noise.length + 11 * c) ++ todo = (frames.drop c).flatMap Frame.bytes := by
  have hlen := h.length_eq
  have hparts : s.buf.take noise.length ++ ((s.buf.drop noise.length).take (11 * c) ++
        (s.buf.drop (noise.length + 11 * c) ++ todo)) =
      noise ++ ((frames.take c).flatMap Frame.bytes ++ (frames.drop c).flatMap Frame.bytes) := by
    rw [← List.flatMap_append, List.take_append_drop, ← h.bytes, ← List.drop_drop,
      ← List.append_assoc (List.take (11 * c) _), List.take_append_drop, ← List.append_assoc, List.take_append_drop]
  obtain ⟨-, hafter⟩ := List.append_inj hparts (by rw [List.length_take]; omega)
  obtain ⟨hslice, hrest⟩ := List.append_inj hafter
    (by rw [length_flatMap_bytes, List.length_take, List.length_take, List.length_drop]; omega)
  exact ⟨flatMap_bytes_inj ((sliceFrames_bytes _ _ _ hc).trans hslice), hrest⟩

/-- EXTRACT puts into an empty batch the frames of the stream that the buffer holds whole, and no others. -/
theorem extract (h : StreamLeft s todo noise frames) (hb : s.batch = []) :
    (extractFrames Config.syncMask s).batch = frames.take ((s.buf.length - noise.length) / 11) ∧
    ∃ noise', StreamLeft (extractFrames Config.syncMask s) todo noise'
      (frames.drop ((s.buf.length - noise.length) / 11)) := by
  by_cases hlen : noise.length + 11 ≤ s.buf.length
  · have hleast : ∀ j, j < noise.length → ¬ syncPairAt s.buf j := fun j hj hs =>
      absurd (h.noise_le_of_syncPairAt hs) (by omega)
    obtain ⟨hslice, hrest⟩ := h.split_frames (c := (s.buf.length - noise.length) / 11) (by omega)
    rw [extractFrames_of_least h.enable hb (h.syncPairAt_noise hlen) hleast hlen]
    exact ⟨hslice, [], h.enable, fun f hf => h.sync f (List.mem_of_mem_drop hf), fun j hj => absurd hj (by simp), hrest⟩
  · have hzero : (s.buf.length - noise.length) / 11 = 0 := by omega
    rw [extractFrames_of_noWholeFrame (h.noWholeFrame (by omega)), hzero, List.take_zero, List.drop_zero]
    exact ⟨hb, noise, h⟩

/-- A PUSH that drops nothing moves a byte from the stream to come to the buffer. -/
theorem push {b : Byte} (h : StreamLeft s (b :: todo) noise frames) (hcap : Config.bufCap ≠ some s.buf.length) :
    StreamLeft (pushByte Config.bufCap b s) todo noise frames ∧ (pushByte Config.bufCap b s).batch = s.batch := by
  rcases pushByte_cases Config.bufCap b s with ⟨he, -⟩ | ⟨-, hc, -⟩ | ⟨-, -, e⟩
  · exact absurd (he.symm.trans h.enable) (by simp)
  · exact absurd hc hcap
  · rw [e]
    exact ⟨{ h with bytes := by rw [← h.bytes]; simp }, rfl⟩

end StreamLeft

/-! ## Runs of PUSH, EXTRACT, STEP and host reads -/

/-- The steps the stream is interleaved with. -/
def IsStreamStep (i : Instr) : Prop :=
  (∃ b, i = .push b) ∨ i = .extract ∨ (∃ now, i = .step now) ∨ isHostRead i = true

/-- Along the steps `is` from `s`, the frames sliced are the first of `frames`, the others are left in the stream, and the
batch grows by no more than the stream shrinks. -/
def SlicesStream (is : List Instr) (s : State) (todo : List Byte) (frames : List Frame) : Prop :=
  ∃ noise rest, StreamLeft (afterAll is s).toFdc todo noise rest ∧ frames = slicedFrames is s ++ rest ∧
    (afterAll is s).batch.length + rest.length ≤ s.batch.length + frames.length

theorem slicedFrames_append (is js : List Instr) (s : State) :
    slicedFrames (is ++ js) s = slicedFrames is s ++ slicedFrames js (afterAll is s) := by
  induction is generalizing s with
  | nil => rfl
  | cons i is ih =>
    simp only [List.cons_append, slicedFrames, afterAll]
    rw [ih, List.append_assoc]

/-- A step after which the batch is no longer than before slices nothing. -/
theorem slicedFrames_singleton_eq_nil {i : Instr} {s : State} (h : (after i s).batch.length ≤ s.batch.length) :
    slicedFrames [i] s = [] := by
  simp only [slicedFrames, List.append_nil]
  split
  · next hb => exact List.length_eq_zero_iff.1 (by simpa [hb] using h)
  · rfl

theorem slicedFrames_extract {s : State} (hb : s.batch = []) :
    slicedFrames [.extract] s = (extractFrames Config.syncMask s.toFdc).batch := by
  simp only [slicedFrames, if_pos hb, List.append_nil]
  rfl

theorem after_hostRead {i : Instr} (h : isHostRead i = true) (s : State) : (after i s).toFdc = s.toFdc := by
  cases i
  case clock | acc | gyro | angle | mag | port | press | lonlat | gpsv | unknown | wrCtrl | wrOther | push | extract
      | step | reset => cases h
  all_goals rfl

theorem pushedBytes_cons_of_ne_push {i : Instr} (hp : ∀ b, i ≠ .push b) (is : List Instr) :
    pushedBytes (i :: is) = pushedBytes is := by
  cases i
  case push b => exact absurd rfl (hp b)
  all_goals rfl

theorem pushedBytes_steps (nows : List Nat) : pushedBytes (nows.map .step) = [] := by
  induction nows with
  | nil => rfl
  | cons now nows ih => exact ih

/-- A step that slices nothing leaves the stream as it is. -/
theorem SlicesStream.of_idle {i : Instr} {s : State} {todo noise : List Byte} {frames : List Frame}
    (h : StreamLeft (after i s).toFdc todo noise frames) (hb : (after i s).batch.length ≤ s.batch.length) :
    SlicesStream [i] s todo frames :=
  ⟨noise, frames, h, by rw [slicedFrames_singleton_eq_nil hb, List.nil_append], Nat.add_le_add_right hb _⟩

theorem SlicesStream.of_extract {s : State} {todo noise : List Byte} {frames : List Frame}
    (h : StreamLeft s.toFdc todo noise frames) : SlicesStream [.extract] s todo frames := by
  by_cases hb : s.batch = []
  · obtain ⟨hbatch, noise', h'⟩ := h.extract hb
    refine ⟨noise', _, h', ?_, ?_⟩
    · rw [slicedFrames_extract hb, hbatch, List.take_append_drop]
    · show (extractFrames Config.syncMask s.toFdc).batch.length + _ ≤ _
      rw [hbatch, ← List.length_append, List.take_append_drop]
      exact Nat.le_add_left _ _
  · have hidle : after .extract s = s := after_of_exec (exec_extract_of_not_enabled (.inr hb))
    exact .of_idle (hidle.symm ▸ h) (by rw [hidle])

theorem StreamLeft.step {i : Instr} {s : State} {is : List Instr} {noise : List Byte} {frames : List Frame}
    (h : StreamLeft s.toFdc (pushedBytes (i :: is)) noise frames) (hi : IsStreamStep i)
    (hcap : ∀ b, i = .push b → Config.bufCap ≠ some s.buf.length) : SlicesStream [i] s (pushedBytes is) frames := by
  rcases hi with ⟨b, rfl⟩ | rfl | ⟨now, rfl⟩ | hread
  · obtain ⟨h', hb⟩ := StreamLeft.push h (hcap b rfl)
    exact .of_idle h' (congrArg List.length hb).le
  · exact .of_extract h
  · obtain ⟨hbatch, hbuf, henable⟩ := after_step_parts now s
    exact .of_idle (StreamLeft.congr h henable hbuf) (by rw [hbatch, List.length_tail]; omega)
  · have hfdc := after_hostRead hread s
    have hne : ∀ b, i ≠ .push b := by
      rintro b rfl
      cases hread
    rw [pushedBytes_cons_of_ne_push hne] at h
    exact .of_idle (hfdc ▸ h) (by rw [hfdc])

/-- The invariant along a run in which no PUSH meets a full buffer. -/
theorem StreamLeft.run {is : List Instr} {s : State} {noise : List Byte} {frames : List Frame}
    (h : StreamLeft s.toFdc (pushedBytes is) noise frames)
    (hcap : ∀ done b todo, is = done ++ .push b :: todo → Config.bufCap ≠ some (afterAll done s).buf.length)
    (his : ∀ i ∈ is, IsStreamStep i) : SlicesStream is s [] frames := by
  induction is generalizing s noise frames with
  | nil => exact ⟨noise, frames, h, rfl, le_rfl⟩
  | cons i is ih =>
    obtain ⟨hi, his⟩ := List.forall_mem_cons.1 his
    obtain ⟨noise₁, rest₁, h₁, hframes, hlen₁⟩ := h.step hi fun b hb => hcap [] b is (by rw [hb]; rfl)
    obtain ⟨noise₂, rest₂, h₂, hrest, hlen₂⟩ :=
      ih h₁ (fun done b todo he => hcap (i :: done) b todo (by rw [he]; rfl)) his
    refine ⟨noise₂, rest₂, h₂, ?_, hlen₂.trans hlen₁⟩
    rw [hframes, hrest, ← List.append_assoc]
    exact congrArg (· ++ rest₂) (slicedFrames_append [i] is s).symm

/-- With every byte in the buffer and no batch in progress, one EXTRACT slices all that is left. -/
theorem StreamLeft.slicedFrames_extract {s : State} {noise : List Byte} {frames : List Frame}
    (h : StreamLeft s.toFdc [] noise frames) (hb : s.batch = []) : slicedFrames [.extract] s = frames := by
  obtain ⟨hbatch, -⟩ := h.extract hb
  have hlen := h.length_eq
  rw [Machine.slicedFrames_extract hb, hbatch]
  exact List.take_of_length_le (by simp only [List.length_nil] at hlen; omega)

/-- Settles O54: the run keeps the invariant, the FRAME steps empty the batch, and the last EXTRACT slices the rest. -/
theorem splitStreamGivesSameFrames : Obligations.SplitStreamGivesSameFrames := by
  intro s noise frames is nows he hb hbuf hsync hclean hcap his hpushed hlen
  have h : StreamLeft s.toFdc (pushedBytes is) noise frames := ⟨he, hsync, hclean, by rw [hbuf, hpushed]; rfl⟩
  obtain ⟨noise₁, rest₁, h₁, hframes, hlen₁⟩ := h.run hcap his
  have hnoPush : ∀ done b todo, nows.map Instr.step ≠ done ++ .push b :: todo := fun done b todo he => by
    have hmem : Instr.push b ∈ nows.map Instr.step := by simp [he]
    simp at hmem
  obtain ⟨noise₂, rest₂, h₂, hrest, -⟩ := StreamLeft.run (is := nows.map .step) (pushedBytes_steps nows ▸ h₁)
    (fun done b todo he => absurd he (hnoPush done b todo)) (by simp [IsStreamStep])
  have hempty : (afterAll (nows.map .step) (afterAll is s)).batch = [] := by
    refine afterAll_steps_batch_nil ?_
    rw [hb, List.length_nil] at hlen₁
    omega
  calc slicedFrames (is ++ nows.map .step ++ [.extract]) s
      = slicedFrames is s ++ (slicedFrames (nows.map .step) (afterAll is s) ++ rest₂) := by
        rw [slicedFrames_append, slicedFrames_append, afterAll_append, h₂.slicedFrames_extract hempty,
          List.append_assoc]
    _ = frames := by rw [hframes, hrest]

end Sys2Proof.Machine
end

section
/-! The checksum test as a sum of bytes: `cksOf` adds bytes modulo 256, so one changed byte changes it, changes that
cancel and reorderings do not (41_checksum.md R150, R153). -/

namespace Sys2Proof.Machine

/-! ## The sum of the first ten bytes -/

theorem frameSum_eq (f : Frame) : frameSum f =
    f.sync.toNat + f.typ.toNat + f.p2.toNat + f.p3.toNat + f.p4.toNat + f.p5.toNat + f.p6.toNat + f.p7.toNat +
      f.p8.toNat + f.p9.toNat := by
  simp [frameSum, Frame.bytes, Nat.add_assoc]

/-- Settles O34: `valid` compares the written-out sum. -/
theorem checksumSumsTenBytes : Obligations.ChecksumSumsTenBytes := by
  intro f
  rw [valid, beq_iff_eq, frameSum_eq]

/-! ## What changes `cksOf` -/

theorem cksOf_cons (b : Byte) (l : List Byte) : cksOf (b :: l) = b + cksOf l := by
  rw [cksOf, List.map_cons, List.sum_cons, BitVec.ofNat_add, BitVec.ofNat_toNat, BitVec.setWidth_eq, cksOf]

theorem cksOf_perm {l m : List Byte} (h : l.Perm m) : cksOf l = cksOf m :=
  congrArg (BitVec.ofNat 8) (h.map BitVec.toNat).sum_eq

/-- `+d` in one byte and `-d` in the next cancel. -/
theorem cksOf_add_sub (x y d : Byte) (l : List Byte) : cksOf ((x + d) :: (y - d) :: l) = cksOf (x :: y :: l) := by
  simp only [cksOf_cons]
  ring

/-- Lists that differ at exactly one index have different checksums. -/
theorem cksOf_ne_of_differ_at {l m : List Byte} {k : Nat} (hlen : l.length = m.length) (hk : l[k]? ≠ m[k]?)
    (hrest : ∀ j, j ≠ k → l[j]? = m[j]?) : cksOf l ≠ cksOf m := by
  induction l generalizing m k with
  | nil =>
    obtain rfl := List.length_eq_zero_iff.1 hlen.symm
    exact absurd rfl hk
  | cons x l ih =>
    obtain ⟨y, m, rfl⟩ := List.exists_cons_of_length_eq_add_one hlen.symm
    rw [cksOf_cons, cksOf_cons]
    cases k with
    | zero =>
      have htail : l = m := List.ext_getElem? fun j => by simpa using hrest (j + 1) (by omega)
      have hhead : x ≠ y := by simpa using hk
      rw [htail]
      exact fun h => hhead (BitVec.add_left_inj _ |>.1 h)
    | succ k =>
      have hhead : x = y := by simpa using hrest 0 (by omega)
      have htail : cksOf l ≠ cksOf m := ih (by simpa using hlen) (by simpa using hk)
        fun j hj => by simpa using hrest (j + 1) (by omega)
      rw [hhead]
      exact fun h => htail (BitVec.add_right_inj _ |>.1 h)

/-! ## What changes the test -/

/-- A changed summed byte changes the sum, a changed eleventh byte what it is compared with. -/
theorem valid_eq_false_of_differ_at {f g : Frame} {k : Nat} (hf : valid f = true) (hk11 : k < 11)
    (hk : f.bytes[k]? ≠ g.bytes[k]?) (hrest : ∀ j, j ≠ k → f.bytes[j]? = g.bytes[j]?) : valid g = false := by
  rw [← Bool.not_eq_true, valid_iff_cks_eq]
  rw [valid_iff_cks_eq] at hf
  intro hg
  by_cases hk10 : k = 10
  · subst hk10
    have hcks : f.cks ≠ g.cks := by simpa [Frame.bytes] using hk
    have hten : f.bytes.take 10 = g.bytes.take 10 := List.ext_getElem? fun j => by
      by_cases hj : j < 10
      · simpa only [List.getElem?_take, hj, if_true] using hrest j (by omega)
      · simp only [List.getElem?_take, hj, if_false]
    exact hcks (by rw [hf, hg, hten])
  · have hcks : f.cks = g.cks := by simpa [Frame.bytes] using hrest 10 (Ne.symm hk10)
    have hten : cksOf (f.bytes.take 10) ≠ cksOf (g.bytes.take 10) :=
      cksOf_ne_of_differ_at (k := k) rfl (by simpa only [List.getElem?_take, show k < 10 by omega, if_true] using hk)
        fun j hj => by simp only [List.getElem?_take, hrest j hj]
    exact hten (by rw [← hf, ← hg, hcks])

theorem valid_congr {f g : Frame} (hcks : f.cks = g.cks)
    (hsum : cksOf (f.bytes.take 10) = cksOf (g.bytes.take 10)) : valid f = valid g := by
  rw [Bool.eq_iff_iff, valid_iff_cks_eq, valid_iff_cks_eq, hcks, hsum]

/-- The bytes changed here are neighbours, after two that stay. -/
theorem valid_add_sub (f : Frame) (d : Byte) : valid { f with p2 := f.p2 + d, p3 := f.p3 - d } = valid f := by
  refine valid_congr rfl ?_
  simp only [Frame.bytes, List.take_succ_cons, cksOf_cons f.sync, cksOf_cons f.typ, cksOf_add_sub]

/-- Settles O35: each change of the bytes by what it does to `cksOf`. -/
theorem checksumDetectsOneByteChanges : Obligations.ChecksumDetectsOneByteChanges :=
  ⟨fun _ _ hf ⟨_, hk11, hk, hrest⟩ => valid_eq_false_of_differ_at hf hk11 hk hrest,
    fun f d hf => (valid_add_sub f d).trans hf,
    fun _ _ hcks hperm => valid_congr hcks.symm (cksOf_perm hperm.symm)⟩

end Sys2Proof.Machine
end

section
/-! Frames that are dropped for their checksum (41_checksum.md R151, R152). -/

namespace Sys2Proof.Machine

theorem frameOutcome_of_invalid (interval now : Nat) (G : Quad GateEntry) {f : Frame} (d : Decoded)
    (hv : valid f = false) : frameOutcome interval now G f d = .droppedChecksum := by
  simp [frameOutcome, hv]

/-- A frame that is not Applied is only taken from the batch, and its outcome recorded. -/
theorem retireFrame_of_not_applied {interval now : Nat} {f : Frame} {d : Decoded} {s : Fdc} {o : FrameOutcome}
    (ho : frameOutcome interval now s.gate f d = o) (hne : o ≠ .applied) :
    retireFrame interval now f d s = recordOutcome o { s with batch := s.batch.tail } := by
  rcases retireFrame_cases interval now f d s with ⟨-, e⟩ | ⟨_, _, -, happlied, -⟩
  · rw [e, ho]
  · exact absurd (ho.symm.trans happlied) hne

theorem exec_decodeFrame_of_head (now : Nat) {f : Frame} {s : State} {rest : List Frame} (hb : s.batch = f :: rest) :
    exec (decodeFrame now f) s = .next { s with
      toFdc := retireFrame Config.rateIntervalTicks now f (decodePayload Config.scaleLut f) s.toFdc } := by
  rw [exec_decodeFrame, onFdc_eq, frameStepOn, if_pos (by rw [hb, List.head?_cons])]

/-- Settles O24: the row runs the FRAME step on the head frame, whose outcome is decided by its checksum alone. -/
theorem checksumFailureDropped : Obligations.ChecksumFailureDropped := by
  intro now f s rest hb hv
  have hdrop := frameOutcome_of_invalid Config.rateIntervalTicks now s.gate (decodePayload Config.scaleLut f) hv
  rw [exec_decodeFrame_of_head now hb, retireFrame_of_not_applied hdrop (by decide), hb]
  rfl

end Sys2Proof.Machine
end

section
/-! Which quotients `rne64` gives exactly, and that it gives plain numbers (42_decode.md R173;
93_implementation_defined.md I26, I27). A value of a binade is a multiple of its spacing, so a quotient is exact exactly
when it is one; with a denominator `d * 2 ^ k`, `d` odd, that is when `d` divides the numerator. -/

namespace Sys2Proof.Machine

/-! ## The range of the bits -/

theorem binade_lt_of_lt_zpow {p q : Nat} (hp : 0 < p) (hq : 0 < q) {e : ℤ} (he : -1022 < e)
    (h : (p : ℚ) / q < 2 ^ e) : (binade p q : ℤ) < e + 1022 := by
  rcases Nat.eq_zero_or_pos (binade p q) with hzero | hpos
  · omega
  · have hlt : (binade p q : ℤ) - 1022 < e :=
      (zpow_lt_zpow_iff_right₀ one_lt_two).1 ((le_of_binade_pos hp hq hpos).trans_lt h)
    omega

theorem quotient_lt_zpow {p q : Nat} (hq : 0 < q) {n : Nat} (hp : p < 2 ^ n) : (p : ℚ) / q < 2 ^ (n : ℤ) := by
  rw [zpow_natCast]
  exact (div_le_self p.cast_nonneg (by exact_mod_cast hq)).trans_lt (by exact_mod_cast hp)

theorem magnitudeBits_lt_infinity {p q : Nat} (hq : 0 < q) (hp : p < 2 ^ 53) :
    magnitudeBits p q < 2047 * 2 ^ 52 := by
  rcases Nat.eq_zero_or_pos p with rfl | hpos
  · simp [magnitudeBits]
  have hbinade : (binade p q : ℤ) < 53 + 1022 := binade_lt_of_lt_zpow hpos hq (by decide) (quotient_lt_zpow hq hp)
  have hsig : significand p q ((binade p q : ℤ) - 1074) ≤ 2 ^ 53 := by
    refine significand_le hq ((lt_of_binade hpos hq).trans_eq ?_)
    rw [two_pow_mul_spacing]
    congr 1
    omega
  rw [magnitudeBits_eq hpos]
  omega

/-- From 2^-1022 on, the quotient is rounded in a binade of normal numbers. -/
theorem le_magnitudeBits_of_normal {p q : Nat} (hp : 0 < p) (hq : 0 < q) (h : (2 : ℚ) ^ (-1022 : ℤ) ≤ (p : ℚ) / q) :
    2 ^ 52 ≤ magnitudeBits p q := by
  have hbinade : (2 : ℚ) ^ ((binade p q : ℤ) - 1022) ≤ (p : ℚ) / q := by
    rcases Nat.eq_zero_or_pos (binade p q) with hzero | hpos
    · simpa [hzero] using h
    · exact le_of_binade_pos hp hq hpos
  have hsig : 2 ^ 52 ≤ significand p q ((binade p q : ℤ) - 1074) := by
    refine le_significand hq (hbinade.trans_eq' ?_)
    rw [two_pow_mul_spacing]
    congr 1
    omega
  rw [magnitudeBits_eq hp]
  omega

theorem rne64_plain {num : Int} {den : Nat} (hnum : num.natAbs < 2 ^ 53) (hpos : 0 < den) (hden : den ≤ 2 ^ 53) :
    b64Plain (rne64 num den) := by
  rcases eq_or_ne num 0 with rfl | hne
  · exact .inl (roundingIsNearestTiesToEven.1 den hpos)
  have habs : 0 < num.natAbs := Int.natAbs_pos.2 hne
  have hquot : (2 : ℚ) ^ (-1022 : ℤ) ≤ (num.natAbs : ℚ) / den := by
    calc (2 : ℚ) ^ (-1022 : ℤ) ≤ 2 ^ (-53 : ℤ) := zpow_le_zpow_right₀ one_le_two (by decide)
      _ = 1 / (2 ^ 53 : Nat) := by norm_num
      _ ≤ (num.natAbs : ℚ) / den := div_le_div₀ (by positivity) (by exact_mod_cast habs) (by exact_mod_cast hpos)
        (by exact_mod_cast hden)
  have hlow := le_magnitudeBits_of_normal habs hpos hquot
  have hhigh := magnitudeBits_lt_infinity hpos hnum
  rw [b64Plain, b64Exponent_eq, rne64_toNat_mod]
  omega

/-! ## Exact quotients -/

theorem magnitudeValue_eq_quotient_iff {p q : Nat} (hp : 0 < p) (hq : 0 < q)
    (hfin : magnitudeBits p q < 2047 * 2 ^ 52) :
    magnitudeValue (magnitudeBits p q) = (p : ℚ) / q ↔
      ∃ j : Nat, (p : ℚ) / q = j * 2 ^ ((binade p q : ℤ) - 1074) := by
  obtain ⟨m, -, hvalue, hnear⟩ := magnitudeBits_spec hp hq hfin
  rw [hvalue]
  refine ⟨fun h => ⟨m, h.symm⟩, fun ⟨j, hj⟩ => ?_⟩
  have hzero := (hnear j).1
  rw [← hj, sub_self, abs_zero] at hzero
  exact sub_eq_zero.1 (abs_nonpos_iff.1 hzero)

/-- A dyadic quotient of at most 53 bits is a multiple of the spacing of its binade. -/
theorem dyadic_multiple_of_spacing {p q a k : Nat} (hp : 0 < p) (hq : 0 < q) (ha : a < 2 ^ 53) (hk : k ≤ 1074)
    (h : (p : ℚ) / q = a / 2 ^ k) : ∃ j : Nat, (p : ℚ) / q = j * 2 ^ ((binade p q : ℤ) - 1074) := by
  have hlt : (p : ℚ) / q < 2 ^ (53 - k : ℤ) := by
    rw [h, zpow_sub₀ two_ne_zero, zpow_natCast]
    exact div_lt_div_of_pos_right (by exact_mod_cast ha) (by positivity)
  have hbinade := binade_lt_of_lt_zpow hp hq (by omega) hlt
  obtain ⟨n, hn⟩ : ∃ n, 1074 - k = binade p q + n := Nat.exists_eq_add_of_le (by omega)
  refine ⟨a * 2 ^ n, ?_⟩
  have hexp : (binade p q : ℤ) - 1074 = -k - n := by omega
  rw [h, hexp, zpow_sub₀ two_ne_zero, zpow_neg, zpow_natCast, zpow_natCast]
  push_cast
  field_simp

/-- An odd divisor of the denominator divides the numerator of a dyadic quotient. -/
theorem dvd_of_quotient_dyadic {p q d m : Nat} {t : ℤ} (hq : 0 < q) (hodd : Odd d) (hd : d ∣ q)
    (h : (p : ℚ) / q = m * 2 ^ t) : d ∣ p := by
  obtain ⟨a, b, ht⟩ : ∃ a b : Nat, t = a - b := ⟨t.toNat, (-t).toNat, by omega⟩
  have hprod : p * 2 ^ b = m * 2 ^ a * q := by
    rw [ht, zpow_sub₀ two_ne_zero, zpow_natCast, zpow_natCast, div_eq_iff (by positivity)] at h
    field_simp at h
    exact_mod_cast h
  have hcop : Nat.Coprime d (2 ^ b) := (Nat.coprime_two_right.2 hodd).pow_right b
  exact hcop.dvd_of_dvd_mul_right (hprod ▸ hd.mul_left _)

theorem rne64_value_eq_iff_natAbs {num : Int} {den : Nat} :
    b64Value (rne64 num den) = (num : ℚ) / den ↔
      magnitudeValue (magnitudeBits num.natAbs den) = (num.natAbs : ℚ) / den := by
  rw [b64Value_eq, rne64_sign, rne64_toNat_mod, Nat.cast_natAbs]
  rcases lt_or_ge num 0 with hneg | hpos
  · simp [hneg, abs_of_neg hneg, neg_div, neg_eq_iff_eq_neg]
  · simp [hpos.not_gt, abs_of_nonneg hpos]

/-- Over `d * 2 ^ k` with `d` odd, a numerator of at most 53 bits is stored without rounding if and only if `d`
divides it. -/
theorem rne64_exact_iff {num : Int} {d k : Nat} (hodd : Odd d) (hk : k ≤ 1074) (hnum : num.natAbs < 2 ^ 53) :
    b64Value (rne64 num (d * 2 ^ k)) = (num : ℚ) / (d * 2 ^ k : Nat) ↔ (d : ℤ) ∣ num := by
  have hden : 0 < d * 2 ^ k := Nat.mul_pos hodd.pos (by positivity)
  rw [rne64_value_eq_iff_natAbs, Int.natCast_dvd]
  generalize num.natAbs = p at hnum
  rcases Nat.eq_zero_or_pos p with rfl | hp
  · simp [magnitudeBits]
  rw [magnitudeValue_eq_quotient_iff hp hden (magnitudeBits_lt_infinity hden hnum)]
  constructor
  · rintro ⟨j, hj⟩
    exact dvd_of_quotient_dyadic hden hodd (Nat.dvd_mul_right d _) hj
  · rintro ⟨a, rfl⟩
    have hd : (d : ℚ) ≠ 0 := by exact_mod_cast hodd.pos.ne'
    refine dyadic_multiple_of_spacing hp hden ((Nat.le_mul_of_pos_left a hodd.pos).trans_lt hnum) hk ?_
    push_cast
    rw [mul_div_mul_left _ _ hd]

/-! ## Raw values -/

theorem natAbs_toInt_le {n : Nat} (hn : n ≤ 32) (v : BitVec n) : v.toInt.natAbs ≤ 2 ^ 31 := by
  have hpow : 2 ^ (n - 1) ≤ 2 ^ 31 := Nat.pow_le_pow_right two_pos (by omega)
  have hlow : -((2 ^ (n - 1) : Nat) : ℤ) ≤ v.toInt := by exact_mod_cast v.le_toInt
  have hhigh : v.toInt < (2 ^ (n - 1) : Nat) := by exact_mod_cast v.toInt_lt
  omega

theorem natAbs_mul_lt {raw : Int} (hraw : raw.natAbs ≤ 2 ^ 31) {c : Nat} (hc : c ≤ 2000) :
    (raw * c).natAbs < 2 ^ 53 := by
  rw [Int.natAbs_mul, Int.natAbs_natCast]
  exact (Nat.mul_le_mul hraw hc).trans_lt (by decide)

/-- Settles O38: 32768 is a power of two, and a raw value times its multiplier has at most 53 bits. -/
theorem motionLanesAreExact : Obligations.MotionLanesAreExact := by
  intro raw
  have hexact : ∀ c : Nat, c ≤ 2000 → b64Value (rne64 (raw.toInt * c) 32768) = (raw.toInt : ℚ) * c / 32768 := by
    intro c hc
    have h := (rne64_exact_iff (d := 1) (k := 15) odd_one (by decide)
      (natAbs_mul_lt (natAbs_toInt_le (by decide) raw) hc)).2 (one_dvd _)
    exact_mod_cast h
  refine ⟨(hexact 16 (by decide)).trans ?_, (hexact 2000 (by decide)).trans ?_, (hexact 180 (by decide)).trans ?_⟩ <;>
    push_cast <;> ring

/-- Settles O39: 100, 10 and 1000 are 25, 5 and 125 times a power of two. -/
theorem decimalLanesExactIffMultiple : Obligations.DecimalLanesExactIffMultiple := by
  have hiff : ∀ {n d k : Nat} (v : BitVec n), n ≤ 32 → Odd d → k ≤ 1074 →
      (b64Value (rne64 v.toInt (d * 2 ^ k)) = (v.toInt : ℚ) / (d * 2 ^ k : Nat) ↔ (d : ℤ) ∣ v.toInt) :=
    fun v hn hodd hk => rne64_exact_iff hodd hk ((natAbs_toInt_le hn v).trans_lt (by decide))
  exact ⟨fun raw => hiff (d := 25) (k := 2) raw (by decide) (by decide) (by decide),
    fun raw => hiff (d := 25) (k := 2) raw (by decide) (by decide) (by decide),
    fun raw => hiff (d := 5) (k := 1) raw (by decide) (by decide) (by decide),
    fun raw => hiff (d := 125) (k := 3) raw (by decide) (by decide) (by decide)⟩

end Sys2Proof.Machine
end

section
/-! The binary64 fields stay plain (93_implementation_defined.md I26, I27). -/

namespace Sys2Proof

/-- The bounds within which the scaling constants of the FDC lie (42_decode.md R161). -/
abbrev Ratio.Small (r : Ratio) : Prop := r.num ≤ 2000 ∧ 0 < r.den ∧ r.den ≤ 32768

end Sys2Proof

namespace Sys2Proof.Machine

/-- `b64Plain` by field value: an integer is no binary64 value. -/
def FieldValue.Plain : FieldValue → Prop
  | .float v => b64Plain v
  | .int _ => True

theorem floatsPlain_iff (S : SensorState) : S.FloatsPlain ↔ ∀ a, (S.get a).Plain := by
  constructor
  · rintro ⟨hacc, hgyro, hangle, htemp, halt, hvel, hyaw, hheight⟩ a
    cases a with
    | acceleration i => exact hacc i
    | angularVelocity i => exact hgyro i
    | angle i => exact hangle i
    | temperature => exact htemp
    | altitude => exact halt
    | groundVelocity => exact hvel
    | gpsYaw => exact hyaw
    | gpsHeight => exact hheight
    | magneticField | digitalPort | pressure | longitude | latitude | deviceClock => trivial
  · intro h
    exact
      { acceleration := fun i => h (.acceleration i)
        angularVelocity := fun i => h (.angularVelocity i)
        angle := fun i => h (.angle i)
        temperature := h .temperature
        altitude := h .altitude
        groundVelocity := h .groundVelocity
        gpsYaw := h .gpsYaw
        gpsHeight := h .gpsHeight }

theorem scaleLane_plain {r : Ratio} (hr : r.Small) {n : Nat} (hn : n ≤ 32) (v : BitVec n) :
    b64Plain (scaleLane r v.toInt) := by
  obtain ⟨hnum, hpos, hden⟩ := hr
  exact rne64_plain (natAbs_mul_lt (natAbs_toInt_le hn v) hnum) hpos (hden.trans (by decide))

/-- The decoder stores a plain number, whatever the bytes of the frame. -/
theorem plain_of_mem_channelWrites {f : Frame} {c : Channel} {w : FieldWrite}
    (h : w ∈ channelWrites Config.scaleLut f c) : w.value.Plain := by
  have hhalf : ∀ {r : Ratio} (v : Half), r.Small → b64Plain (scaleLane r v.toInt) :=
    fun v hr => scaleLane_plain hr (by decide) v
  have hword : ∀ {r : Ratio} (v : Word32), r.Small → b64Plain (scaleLane r v.toInt) :=
    fun v hr => scaleLane_plain hr (by decide) v
  revert w
  cases c <;>
    simp only [channelWrites, clockWrites, accWrites, gyroWrites, angleWrites, magWrites, portWrites, pressWrites,
      lonlatWrites, gpsvWrites, List.forall_mem_cons]
  case clock => exact ⟨trivial, trivial, trivial, trivial, trivial, trivial, trivial, nofun⟩
  case acc | gyro | angle =>
    exact ⟨hhalf _ (by decide), hhalf _ (by decide), hhalf _ (by decide), hhalf _ (by decide), nofun⟩
  case mag => exact ⟨trivial, trivial, trivial, hhalf _ (by decide), nofun⟩
  case port => exact ⟨trivial, trivial, trivial, trivial, nofun⟩
  case press => exact ⟨trivial, hword _ (by decide), nofun⟩
  case lonlat => exact ⟨trivial, trivial, nofun⟩
  case gpsv => exact ⟨hhalf _ (by decide), hhalf _ (by decide), hhalf _ (by decide), nofun⟩

theorem SensorState.FloatsPlain.applyWrites {S : SensorState} (hS : S.FloatsPlain) (f : Frame) (c : Channel) :
    (applyWrites (channelWrites Config.scaleLut f c) S).FloatsPlain := by
  refine applyWrites_keeps (fun w hw S hS => ?_) hS
  rw [floatsPlain_iff] at hS ⊢
  intro a
  rw [S.get_write]
  split
  case isTrue => exact plain_of_mem_channelWrites hw
  case isFalse => exact hS a

theorem SensorState.FloatsPlain.reset : SensorState.reset.FloatsPlain :=
  (floatsPlain_iff _).2 fun a => by
    cases a with
    | acceleration i | angularVelocity i | angle i => fin_cases i <;> exact .inl rfl
    | temperature | altitude | groundVelocity | gpsYaw | gpsHeight => exact .inl rfl
    | magneticField | digitalPort | pressure | longitude | latitude | deviceClock => trivial

/-! ## Every step -/

theorem Fdc.FloatsOk.retireFrame {s : Fdc} (hs : s.FloatsOk) (interval now : Nat) (f : Frame) :
    (retireFrame interval now f (decodePayload Config.scaleLut f) s).FloatsOk := by
  rcases retireFrame_decodePayload_cases interval now Config.scaleLut f s with ⟨o, -, e⟩ | ⟨c, -, e⟩ <;> rw [e]
  · exact { hs with }
  · exact { hs with sensor := hs.sensor.applyWrites f c }

theorem Fdc.FloatsOk.writeCtrl {s : Fdc} (hs : s.FloatsOk) (v : Word64) : (writeCtrl v s).FloatsOk := by
  refine { hs with snap := ?_ }
  rw [writeCtrl_snap]
  split
  · exact hs.sensor
  · exact hs.snap

theorem Fdc.FloatsOk.congr {s t : Fdc} (hs : s.FloatsOk) (h : t.sensor = s.sensor ∧ t.snap = s.snap) :
    t.FloatsOk := by
  obtain ⟨hsensor, hsnap⟩ := h
  exact ⟨hsensor ▸ hs.sensor, hsnap ▸ hs.snap⟩

theorem Fdc.FloatsOk.effect {i : Instr} {s t : Fdc} (hs : s.FloatsOk) (h : Effect i s t) : t.FloatsOk := by
  cases h with
  | same => exact hs
  | push b _ => exact hs.congr (pushByte_values ..)
  | extract _ => exact hs.congr (extractFrames_values ..)
  | reset _ => exact ⟨.reset, .reset⟩
  | ctrl v _ => exact hs.writeCtrl v
  | frame now f rest _ _ => exact hs.retireFrame ..

/-- Settles O57: every lane is a small quotient, SensorState changes by write sets and RESET alone, and the snapshot by
a copy of it. -/
theorem stepKeepsFloatsPlain : Obligations.StepKeepsFloatsPlain := fun _ _ hs h =>
  let ⟨_, he⟩ := exists_effect_of_step h
  hs.effect he

end Sys2Proof.Machine
end

section
/-! The frame rows at the head of the batch: which write set an Applied frame of each type is, and what it leaves
(42_decode.md R160, R162-R171). -/

namespace Sys2Proof.Machine

/-- Settles O27: both are the FRAME step on the head frame with its decode. -/
theorem stepAgreesWithFrameRow : Obligations.StepAgreesWithFrameRow := by
  intro now f s rest hb
  rw [exec_decodeFrame_of_head now hb, exec_step, frameStepHead_cons _ _ _ _ _ _ hb]

/-! ## Applied and unknown frames -/

theorem frameOutcome_of_accepted {interval now : Nat} {G : Quad GateEntry} {f : Frame} {t : Channel}
    (w : List FieldWrite) (hv : valid f = true)
    (hgate : ∀ g, gateIndex t = some g → gateAccepts interval (G.get g) now = true) :
    frameOutcome interval now G f (.known t w) = .applied := by
  cases ht : gateIndex t with
  | none => simp [frameOutcome, hv, ht]
  | some g => simp [frameOutcome, hv, ht, hgate g ht]

theorem frameOutcome_of_rejected (interval now : Nat) (G : Quad GateEntry) {f : Frame} (hv : valid f = true) :
    frameOutcome interval now G f .rejected = .droppedUnknown := by
  simp [frameOutcome, hv]

theorem retireFrame_of_applied {interval now : Nat} {f : Frame} {t : Channel} {w : List FieldWrite} {s : Fdc}
    (h : frameOutcome interval now s.gate f (.known t w) = .applied) :
    retireFrame interval now f (.known t w) s =
      applyFrame t w now (recordOutcome .applied { s with batch := s.batch.tail }) := by
  rcases retireFrame_cases interval now f (.known t w) s with ⟨hne, -⟩ | ⟨t', w', ⟨⟩, -, e⟩
  · exact absurd h hne
  · exact e

theorem frameStepOn_of_head (interval now : Nat) {f : Frame} (d : Decoded) {s : Fdc} {rest : List Frame}
    (hb : s.batch = f :: rest) : frameStepOn interval now f d s = retireFrame interval now f d s :=
  if_pos (by rw [hb, List.head?_cons])

/-- A row of a known type whose frame heads the batch, is valid and passes the gate of its channel, if it has one, is
Applied (43_gate_apply.md R195). -/
theorem execKnown_of_accepted {now : Nat} {f : Frame} {t : Channel} {s : State} {rest : List Frame}
    (w : List FieldWrite) (hb : s.batch = f :: rest) (hv : valid f = true)
    (hgate : ∀ g, gateIndex t = some g → gateOpen (s.gate.get g) now) :
    execKnown now f t w s = .next
      { s with
        batch := rest
        sensor := applyWrites w s.sensor
        gate := gateRecord t now s.gate
        lastOutcome := 1
        chValid := setValid t s.chValid
        cnt := { s.cnt with applied := s.cnt.applied + 1 } } := by
  have ho := frameOutcome_of_accepted w hv fun g ht => (gateAccepts_iff Config.rateIntervalTicks _ now).2 (hgate g ht)
  rw [execKnown, onFdc_eq, frameStepOn_of_head _ _ _ hb, retireFrame_of_applied ho, hb]
  rfl

/-! ## What each write set leaves -/

/-- The year is offset, the bytes stand as they are, and the millisecond is signed (42_decode.md R162). -/
theorem applyWrites_clockWrites (yy month day hour minute second : Byte) (ms : Half) (S : SensorState) :
    applyWrites (clockWrites Config.scaleLut yy month day hour minute second ms) S = { S with
      deviceClock := ⟨2000 + (yy.toNat : Int), month.toNat, day.toNat, hour.toNat, minute.toNat, second.toNat,
        ms.toInt⟩ } := by
  simp [applyWrites, clockWrites, SensorState.write, DeviceClock.set, Config.scaleLut]

theorem applyWrites_accWrites (a0 a1 a2 t : Half) (S : SensorState) :
    applyWrites (accWrites Config.scaleLut a0 a1 a2 t) S = { S with
      acceleration := ⟨rne64 (a0.toInt * 16) 32768, rne64 (a1.toInt * 16) 32768, rne64 (a2.toInt * 16) 32768,
        S.acceleration.x3⟩
      temperature := rne64 t.toInt 100 } := by
  simp [applyWrites, accWrites, SensorState.write, Quad.set, scaleLane, Config.scaleLut]

theorem applyWrites_gyroWrites (a0 a1 a2 t : Half) (S : SensorState) :
    applyWrites (gyroWrites Config.scaleLut a0 a1 a2 t) S = { S with
      angularVelocity := ⟨rne64 (a0.toInt * 2000) 32768, rne64 (a1.toInt * 2000) 32768, rne64 (a2.toInt * 2000) 32768,
        S.angularVelocity.x3⟩
      temperature := rne64 t.toInt 100 } := by
  simp [applyWrites, gyroWrites, SensorState.write, Quad.set, scaleLane, Config.scaleLut]

theorem applyWrites_angleWrites (a0 a1 a2 t : Half) (S : SensorState) :
    applyWrites (angleWrites Config.scaleLut a0 a1 a2 t) S = { S with
      angle := ⟨rne64 (a0.toInt * 180) 32768, rne64 (a1.toInt * 180) 32768, rne64 (a2.toInt * 180) 32768,
        S.angle.x3⟩
      temperature := rne64 t.toInt 100 } := by
  simp [applyWrites, angleWrites, SensorState.write, Quad.set, scaleLane, Config.scaleLut]

theorem applyWrites_magWrites (a0 a1 a2 t : Half) (S : SensorState) :
    applyWrites (magWrites Config.scaleLut a0 a1 a2 t) S = { S with
      magneticField := ⟨a0.toInt, a1.toInt, a2.toInt, S.magneticField.x3⟩
      temperature := rne64 t.toInt 100 } := by
  simp [applyWrites, magWrites, SensorState.write, Quad.set, scaleLane, Config.scaleLut]

theorem applyWrites_portWrites (a0 a1 a2 a3 : Half) (S : SensorState) :
    applyWrites (portWrites a0 a1 a2 a3) S = { S with
      digitalPort := ⟨a0.toInt, a1.toInt, a2.toInt, a3.toInt⟩ } := rfl

theorem applyWrites_pressWrites (p a : Word32) (S : SensorState) :
    applyWrites (pressWrites Config.scaleLut p a) S = { S with
      pressure := p.toInt
      altitude := rne64 a.toInt 100 } := by
  simp [applyWrites, pressWrites, SensorState.write, scaleLane, Config.scaleLut]

theorem applyWrites_lonlatWrites (lo la : Word32) (S : SensorState) :
    applyWrites (lonlatWrites lo la) S = { S with
      longitude := lo.toInt
      latitude := la.toInt } := rfl

theorem applyWrites_gpsvWrites (h y v : Half) (S : SensorState) :
    applyWrites (gpsvWrites Config.scaleLut h y v) S = { S with
      gpsHeight := rne64 h.toInt 10
      gpsYaw := rne64 y.toInt 10
      groundVelocity := rne64 v.toInt 1000 } := by
  simp [applyWrites, gpsvWrites, SensorState.write, scaleLane, Config.scaleLut]

/-! ## The rows -/

/-- Settles O14: the gate does not see CLOCK. -/
theorem clockFrameApplied : Obligations.ClockFrameApplied := by
  intro now sync cks yy month day hour minute second ms s rest hb hv
  have h := execKnown_of_accepted (now := now) (t := .clock)
    (clockWrites Config.scaleLut yy month day hour minute second ms) hb hv nofun
  rw [applyWrites_clockWrites] at h
  exact h

/-- Settles O15: the row's gate entry is entry 0. -/
theorem accFrameApplied : Obligations.AccFrameApplied := by
  intro now sync cks l0 l1 l2 l3 s rest hb hv hopen
  have h := execKnown_of_accepted (t := .acc) (accWrites Config.scaleLut l0 l1 l2 l3) hb hv
    fun | _, rfl => hopen
  rw [applyWrites_accWrites] at h
  exact h

/-- Settles O16: the row's gate entry is entry 1. -/
theorem gyroFrameApplied : Obligations.GyroFrameApplied := by
  intro now sync cks l0 l1 l2 l3 s rest hb hv hopen
  have h := execKnown_of_accepted (t := .gyro) (gyroWrites Config.scaleLut l0 l1 l2 l3) hb hv
    fun | _, rfl => hopen
  rw [applyWrites_gyroWrites] at h
  exact h

/-- Settles O17: the row's gate entry is entry 2. -/
theorem angleFrameApplied : Obligations.AngleFrameApplied := by
  intro now sync cks l0 l1 l2 l3 s rest hb hv hopen
  have h := execKnown_of_accepted (t := .angle) (angleWrites Config.scaleLut l0 l1 l2 l3) hb hv
    fun | _, rfl => hopen
  rw [applyWrites_angleWrites] at h
  exact h

/-- Settles O18: the row's gate entry is entry 3. -/
theorem magFrameApplied : Obligations.MagFrameApplied := by
  intro now sync cks l0 l1 l2 l3 s rest hb hv hopen
  have h := execKnown_of_accepted (t := .mag) (magWrites Config.scaleLut l0 l1 l2 l3) hb hv
    fun | _, rfl => hopen
  rw [applyWrites_magWrites] at h
  exact h

/-- Settles O19: the gate does not see PORT. -/
theorem portFrameApplied : Obligations.PortFrameApplied := by
  intro now sync cks l0 l1 l2 l3 s rest hb hv
  have h := execKnown_of_accepted (now := now) (t := .port) (portWrites l0 l1 l2 l3) hb hv nofun
  rw [applyWrites_portWrites] at h
  exact h

/-- Settles O20: the gate does not see PRESS. -/
theorem pressFrameApplied : Obligations.PressFrameApplied := by
  intro now sync cks l0 l1 s rest hb hv
  have h := execKnown_of_accepted (now := now) (t := .press) (pressWrites Config.scaleLut l0 l1) hb hv nofun
  rw [applyWrites_pressWrites] at h
  exact h

/-- Settles O21: the gate does not see LONLAT. -/
theorem lonlatFrameApplied : Obligations.LonlatFrameApplied := by
  intro now sync cks l0 l1 s rest hb hv
  have h := execKnown_of_accepted (now := now) (t := .lonlat) (lonlatWrites l0 l1) hb hv nofun
  rw [applyWrites_lonlatWrites] at h
  exact h

/-- Settles O22: the gate does not see GPSV, and its write set takes three of the four lanes. -/
theorem gpsvFrameApplied : Obligations.GpsvFrameApplied := by
  intro now sync cks l0 l1 l2 l3 s rest hb hv
  have h := execKnown_of_accepted (now := now) (t := .gpsv) (gpsvWrites Config.scaleLut l0 l1 l2) hb hv nofun
  rw [applyWrites_gpsvWrites] at h
  exact h

/-- Settles O23: the row's decode is Rejected, so a valid frame is dropped for its type. -/
theorem unknownTypeDropped : Obligations.UnknownTypeDropped := by
  intro now sync typ cks payload s rest _ hb hv
  have ho := frameOutcome_of_rejected Config.rateIntervalTicks now s.gate hv
  have h : exec (.unknown now sync typ payload cks) s =
      onFdc (frameStepOn Config.rateIntervalTicks now (unknownFrame sync typ payload cks) .rejected) s := rfl
  rw [h, onFdc_eq, frameStepOn_of_head _ _ _ hb, retireFrame_of_not_applied ho (by decide), hb]
  rfl

end Sys2Proof.Machine
end

section
/-! The rate gate and the state update of the FRAME step (43_gate_apply.md R190-R198). -/

namespace Sys2Proof.Machine

/-! ## The FRAME step by its outcome -/

theorem decodePayload_of_channelOf {f : Frame} {c : Channel} (lut : ScaleLut) (h : channelOf f.typ = some c) :
    decodePayload lut f = .known c (channelWrites lut f c) := by
  unfold decodePayload
  rw [h]
  cases c <;> rfl

theorem exec_step_of_head (now : Nat) {f : Frame} {s : State} {rest : List Frame} (hb : s.batch = f :: rest) :
    exec (.step now) s = .next { s with
      toFdc := retireFrame Config.rateIntervalTicks now f (decodePayload Config.scaleLut f) s.toFdc } := by
  rw [exec_step, frameStepHead_cons _ _ _ _ _ _ hb]

/-- STEP on a valid frame of unknown type (42_decode.md R171). -/
theorem exec_step_of_rejected (now : Nat) {f : Frame} {s : State} {rest : List Frame} (hb : s.batch = f :: rest)
    (hv : valid f = true) (hd : decodePayload Config.scaleLut f = .rejected) :
    exec (.step now) s = .next
      { s with
        batch := rest
        lastOutcome := 4
        cnt := { s.cnt with unknown := s.cnt.unknown + 1 }
        sticky := { s.sticky with unktype := true } } := by
  have ho := frameOutcome_of_rejected Config.rateIntervalTicks now s.gate hv
  rw [exec_step_of_head now hb, hd, retireFrame_of_not_applied ho (by decide), hb]
  rfl

/-- STEP on a valid frame of a known type whose gate, if it has one, is open. -/
theorem exec_step_of_accepted {now : Nat} {f : Frame} {t : Channel} {w : List FieldWrite} {s : State}
    {rest : List Frame} (hb : s.batch = f :: rest) (hv : valid f = true)
    (hd : decodePayload Config.scaleLut f = .known t w)
    (hgate : ∀ g, gateIndex t = some g → gateOpen (s.gate.get g) now) :
    exec (.step now) s = .next
      { s with
        batch := rest
        sensor := applyWrites w s.sensor
        gate := gateRecord t now s.gate
        lastOutcome := 1
        chValid := setValid t s.chValid
        cnt := { s.cnt with applied := s.cnt.applied + 1 } } := by
  rw [stepAgreesWithFrameRow now f s rest hb, exec_decodeFrame, hd]
  exact execKnown_of_accepted w hb hv hgate

theorem frameOutcome_of_gate_closed {now : Nat} {G : Quad GateEntry} {f : Frame} {t : Channel} {g : Fin 4}
    (w : List FieldWrite) (hv : valid f = true) (hg : gateIndex t = some g) (hclosed : ¬ gateOpen (G.get g) now) :
    frameOutcome Config.rateIntervalTicks now G f (.known t w) = .suppressed := by
  have haccept : ¬ gateAccepts Config.rateIntervalTicks (G.get g) now = true :=
    fun h => hclosed ((gateAccepts_iff _ _ _).1 h)
  simp [frameOutcome, hv, hg, haccept]

/-- STEP on a valid frame of a channel whose gate is closed. -/
theorem exec_step_of_gate_closed {now : Nat} {f : Frame} {t : Channel} {w : List FieldWrite} {g : Fin 4} {s : State}
    {rest : List Frame} (hb : s.batch = f :: rest) (hv : valid f = true)
    (hd : decodePayload Config.scaleLut f = .known t w) (hg : gateIndex t = some g)
    (hclosed : ¬ gateOpen (s.gate.get g) now) :
    exec (.step now) s = .next
      { s with
        batch := rest
        lastOutcome := 2
        cnt := { s.cnt with suppressed := s.cnt.suppressed + 1 } } := by
  rw [exec_step_of_head now hb, hd,
    retireFrame_of_not_applied (frameOutcome_of_gate_closed w hv hg hclosed) (by decide), hb]
  rfl

theorem gateRecord_of_ungated {t : Channel} (h : gateIndex t = none) (now : Nat) (G : Quad GateEntry) :
    gateRecord t now G = G := by
  rw [gateRecord, h]

theorem gateRecord_of_gated {t : Channel} {g : Fin 4} (h : gateIndex t = some g) (now : Nat) (G : Quad GateEntry) :
    gateRecord t now G = G.set g ⟨now, true⟩ := by
  rw [gateRecord, h]

/-- Settles O13: along the tests, checksum, type and gate. -/
theorem frameStepFollowsItsRule : Obligations.FrameStepFollowsItsRule := by
  intro now s f rest hb
  cases hv : valid f with
  | false =>
    rw [stepAgreesWithFrameRow now f s rest hb, checksumFailureDropped now f s rest hb hv]
    rfl
  | true =>
    rw [if_neg (show ¬ true = false by decide)]
    cases hd : decodePayload Config.scaleLut f with
    | rejected => exact exec_step_of_rejected now hb hv hd
    | known t w =>
      dsimp only
      cases hg : gateIndex t with
      | none =>
        rw [exec_step_of_accepted hb hv hd (by simp [hg]), gateRecord_of_ungated hg]
        rfl
      | some g =>
        by_cases hopen : gateOpen (s.gate.get g) now
        · rw [exec_step_of_accepted hb hv hd (by simp [hg, hopen]), gateRecord_of_gated hg]
          exact congrArg _ (if_pos hopen).symm
        · rw [exec_step_of_gate_closed hb hv hd hg hopen]
          exact congrArg _ (if_neg hopen).symm

theorem not_gateOpen_of_early {e : GateEntry} {now : Nat} (hseen : e.seen = true)
    (hearly : (now : Int) - e.last < Config.rateIntervalTicks) : ¬ gateOpen e now := by
  rintro (hunseen | hlate)
  · simp [hseen] at hunseen
  · exact absurd hearly (not_lt.2 hlate)

/-- Settles O25: seen, and the interval not yet over, is a closed gate. -/
theorem earlyGatedFrameSuppressed : Obligations.EarlyGatedFrameSuppressed := by
  intro now f t g s rest hb hv hc hg hseen hearly
  rw [← stepAgreesWithFrameRow now f s rest hb]
  exact exec_step_of_gate_closed hb hv (decodePayload_of_channelOf _ hc) hg (not_gateOpen_of_early hseen hearly)

/-! ## The write set -/

/-- A write set that names no field twice leaves its own values. -/
theorem get_applyWrites_of_mem {ws : List FieldWrite} (hnodup : (ws.map FieldWrite.field).Nodup) {p : FieldWrite}
    (hp : p ∈ ws) (S : SensorState) : (applyWrites ws S).get p.field = p.value := by
  induction ws generalizing S with
  | nil => cases hp
  | cons q ws ih =>
    obtain ⟨hq, hnodup⟩ := List.nodup_cons.1 hnodup
    rcases List.mem_cons.1 hp with rfl | hp
    · calc (applyWrites ws (S.write p)).get p.field
          = (S.write p).get p.field := get_applyWrites_of_notMem hq _
        _ = p.value := by rw [S.get_write, if_pos rfl]
    · exact ih hnodup hp (S.write q)

theorem channelFields_nodup (c : Channel) : (channelFields c).Nodup := by
  cases c <;> decide

/-- The one channel whose frames write a field, none for the temperature and for the fourth elements. -/
def fieldChannel : SensorField → Option Channel
  | .acceleration i => if i = 3 then none else some .acc
  | .angularVelocity i => if i = 3 then none else some .gyro
  | .angle i => if i = 3 then none else some .angle
  | .magneticField i => if i = 3 then none else some .mag
  | .digitalPort _ => some .port
  | .temperature => none
  | .pressure | .altitude => some .press
  | .groundVelocity | .gpsYaw | .gpsHeight => some .gpsv
  | .longitude | .latitude => some .lonlat
  | .deviceClock _ => some .clock

theorem fieldChannel_of_mem_channelFields (c : Channel) :
    ∀ a ∈ channelFields c, a ≠ .temperature → fieldChannel a = some c := by
  cases c <;> decide

/-- Different channels share no field but the temperature (43_gate_apply.md R196). -/
theorem eq_temperature_of_mem_channelFields {c c' : Channel} (hne : c ≠ c') {a : SensorField}
    (ha : a ∈ channelFields c) (ha' : a ∈ channelFields c') : a = .temperature := by
  by_contra ht
  have h := fieldChannel_of_mem_channelFields c a ha ht
  have h' := fieldChannel_of_mem_channelFields c' a ha' ht
  exact hne (Option.some.inj (h.symm.trans h'))

theorem map_field_of_decodePayload {lut : ScaleLut} {f : Frame} {c : Channel} {ws : List FieldWrite}
    (h : decodePayload lut f = .known c ws) : ws.map FieldWrite.field = channelFields c := by
  obtain ⟨-, rfl⟩ := decodePayload_eq_known h
  exact map_field_channelWrites lut f c

/-- Settles O28: no write set names a field twice, and every field but the temperature belongs to one channel. -/
theorem appliedFrameWritesItsWriteSet : Obligations.AppliedFrameWritesItsWriteSet := by
  refine ⟨fun now f t w s rest hb hv hd hgate => ?_, fun f f' t t' w w' hd hd' hne a ha ha' => ?_, fun f t w hd => ?_⟩
  · have hnodup : (w.map FieldWrite.field).Nodup := map_field_of_decodePayload hd ▸ channelFields_nodup t
    exact ⟨_, exec_step_of_accepted hb hv hd hgate, rfl, fun p hp => get_applyWrites_of_mem hnodup hp s.sensor,
      fun a ha => get_applyWrites_of_notMem ha s.sensor⟩
  · rw [map_field_of_decodePayload hd] at ha
    rw [map_field_of_decodePayload hd'] at ha'
    exact eq_temperature_of_mem_channelFields hne ha ha'
  · rw [map_field_of_decodePayload hd]
    exact temperature_mem_channelFields_iff (decodePayload_eq_known hd).1

/-! ## What changes SensorState and the gate -/

theorem outcomeCode_eq_one_iff (o : FrameOutcome) : outcomeCode o = 1 ↔ o = .applied := by
  cases o <;> decide

theorem pushByte_gate (cap : Option Nat) (b : Byte) (s : Fdc) : (pushByte cap b s).gate = s.gate := by
  rcases pushByte_cases cap b s with ⟨-, e⟩ | ⟨-, -, e⟩ | ⟨-, -, e⟩ <;> rw [e]

theorem extractFrames_gate (mask : Byte) (s : Fdc) : (extractFrames mask s).gate = s.gate := by
  rcases extractFrames_cases mask s with e | ⟨-, -, _, -, -, e⟩ <;> rw [e]

/-- SensorState and the gate stay, or the step is RESET or an Applied FRAME step (43_gate_apply.md R197). -/
theorem Effect.sensor_gate {i : Instr} {s t : Fdc} (h : Effect i s t) :
    (t.sensor = s.sensor ∧ t.gate = s.gate) ∨ i = .reset ∨
      (isFrameStep i = true ∧ s.batch ≠ [] ∧ t.lastOutcome = 1 ∧ t.cnt.applied = s.cnt.applied + 1) := by
  cases h with
  | same => exact .inl ⟨rfl, rfl⟩
  | push b _ => exact .inl ⟨(pushByte_values ..).1, pushByte_gate ..⟩
  | extract _ => exact .inl ⟨(extractFrames_values ..).1, extractFrames_gate ..⟩
  | reset hi => exact .inr (.inl hi)
  | ctrl v _ => exact .inl ⟨rfl, rfl⟩
  | frame now f rest hi hb =>
    rcases retireFrame_cases Config.rateIntervalTicks now f (decodePayload Config.scaleLut f) s with
      ⟨-, e⟩ | ⟨c, w, -, -, e⟩ <;> rw [e]
    · exact .inl ⟨rfl, rfl⟩
    · exact .inr (.inr ⟨hi, by simp [hb], rfl, rfl⟩)

/-- What a term that no step decodes to (log 13) can do to the FDC: nothing, a CTRL write, or a drop of the head
frame. -/
theorem exec_cases_of_not_wf {i : Instr} {s t : State} (hw : i.wf = false) (h : exec i s = .next t) :
    t.toFdc = s.toFdc ∨ (∃ v, t.toFdc = writeCtrl v s.toFdc) ∨
      ∃ o, t.toFdc = recordOutcome o { s.toFdc with batch := s.batch.tail } := by
  cases i
  case unknown now sync typ p k =>
    cases h
    rcases frameStepOn_cases Config.rateIntervalTicks now (unknownFrame sync typ p k) .rejected s.toFdc with
      ⟨-, e⟩ | ⟨-, e⟩
    · exact .inl e
    · rcases retireFrame_cases Config.rateIntervalTicks now (unknownFrame sync typ p k) .rejected s.toFdc with
        ⟨-, e'⟩ | ⟨_, _, hd, -⟩
      · exact .inr (.inr ⟨_, e.trans e'⟩)
      · cases hd
  case rdReserved o =>
    cases h
    exact .inl rfl
  case wrOther o v =>
    cases h
    by_cases ho : offsetOf o = 0
    · exact .inr (.inl ⟨v, if_pos ho⟩)
    · exact .inl (if_neg ho)
  all_goals cases hw

theorem exec_sensor_gate_of_not_wf {i : Instr} {s t : State} (hw : i.wf = false) (h : exec i s = .next t) :
    t.sensor = s.sensor ∧ t.gate = s.gate := by
  rcases exec_cases_of_not_wf hw h with e | ⟨v, e⟩ | ⟨o, e⟩ <;> rw [e] <;> exact ⟨rfl, rfl⟩

/-- Settles O29: by `Effect` where the instruction is well formed. -/
theorem onlyAppliedFramesChangeSensorAndGate : Obligations.OnlyAppliedFramesChangeSensorAndGate := by
  intro i s t h hchange
  have hunchanged : ¬ (t.sensor = s.sensor ∧ t.gate = s.gate) := fun ⟨hsensor, hgate⟩ =>
    hchange.elim (· hsensor) (· hgate)
  cases hw : i.wf with
  | true => exact (exec_effect hw h).sensor_gate.resolve_left hunchanged
  | false => exact absurd (exec_sensor_gate_of_not_wf hw h) hunchanged

/-! ## The gate along FRAME steps at one time -/

theorem after_step_of_head (now : Nat) {f : Frame} {s : State} {rest : List Frame} (hb : s.batch = f :: rest) :
    (after (.step now) s).toFdc =
      retireFrame Config.rateIntervalTicks now f (decodePayload Config.scaleLut f) s.toFdc := by
  rw [after_of_exec (exec_step_of_head now hb)]

/-- A gated frame that ends Applied leaves the time in its gate entry (43_gate_apply.md R192). -/
theorem after_step_gate_of_applied {now : Nat} {f : Frame} {t : Channel} {g : Fin 4} {s : State} {rest : List Frame}
    (hb : s.batch = f :: rest) (hc : channelOf f.typ = some t) (hg : gateIndex t = some g)
    (happlied : (after (.step now) s).lastOutcome = 1) : (after (.step now) s).gate.get g = ⟨now, true⟩ := by
  rw [after_step_of_head now hb] at happlied ⊢
  rcases retireFrame_decodePayload_cases Config.rateIntervalTicks now Config.scaleLut f s.toFdc with
    ⟨o, ho, e⟩ | ⟨c, hc', e⟩ <;> rw [e] at happlied ⊢
  · exact absurd ((outcomeCode_eq_one_iff o).1 happlied) ho
  · obtain rfl : t = c := Option.some.inj (hc.symm.trans hc')
    rw [applyFrame_gate, gateRecord_get, if_pos hg]

/-- A FRAME step at the time a gate entry already holds leaves it. -/
theorem after_step_gate_of_same_time {now : Nat} {g : Fin 4} {s : State} (h : s.gate.get g = ⟨now, true⟩) :
    (after (.step now) s).gate.get g = ⟨now, true⟩ := by
  cases hb : s.batch with
  | nil => rwa [after_of_exec (exec_step_of_empty now hb)]
  | cons f rest =>
    rw [after_step_of_head now hb]
    rcases retireFrame_cases Config.rateIntervalTicks now f (decodePayload Config.scaleLut f) s.toFdc with
      ⟨-, e⟩ | ⟨c, w, -, -, e⟩ <;> rw [e]
    · exact h
    · rw [applyFrame_gate, gateRecord_get, recordOutcome_gate, h, ite_self]

theorem afterAll_steps_gate_of_same_time {now : Nat} {g : Fin 4} (n : Nat) {s : State}
    (h : s.gate.get g = ⟨now, true⟩) : (afterAll (List.replicate n (.step now)) s).gate.get g = ⟨now, true⟩ := by
  induction n generalizing s with
  | zero => exact h
  | succ n ih => exact ih (after_step_gate_of_same_time h)

theorem afterAll_replicate_step_batch {now : Nat} {s : State} {front rest : List Frame} (hb : s.batch = front ++ rest) :
    (afterAll (List.replicate front.length (.step now)) s).batch = rest := by
  obtain ⟨hbatch, -, -⟩ := afterAll_steps_parts (List.replicate front.length now) s
  rwa [List.map_replicate, List.length_replicate, hb, List.drop_left] at hbatch

theorem afterAll_replicate_add (m n : Nat) (i : Instr) (s : State) :
    afterAll (List.replicate (m + n) i) s = afterAll (List.replicate n i) (afterAll (List.replicate m i) s) := by
  rw [← List.replicate_append_replicate, afterAll_append]

theorem afterAll_replicate_succ (n : Nat) (i : Instr) (s : State) :
    afterAll (List.replicate (n + 1) i) s = after i (afterAll (List.replicate n i) s) :=
  afterAll_replicate_add n 1 i s

/-- No interval is 0, so the time of the last accepted frame itself is too early. -/
theorem not_gateOpen_at_last (now : Nat) : ¬ gateOpen ⟨now, true⟩ now := by
  have := rateIntervalTicks_pos
  exact not_gateOpen_of_early rfl (show (now : Int) - now < _ by omega)

/-- A valid frame further back in the batch is Suppressed where its gate entry holds the common time of the steps. -/
theorem lastOutcome_of_same_time {now : Nat} {f : Frame} {t : Channel} {g : Fin 4} {s : State}
    {front rest : List Frame} (hb : s.batch = front ++ f :: rest) (hv : valid f = true)
    (hc : channelOf f.typ = some t) (hg : gateIndex t = some g) (hentry : s.gate.get g = ⟨now, true⟩) :
    (afterAll (List.replicate (front.length + 1) (.step now)) s).lastOutcome = 2 := by
  have hclosed := not_gateOpen_at_last now
  rw [← afterAll_steps_gate_of_same_time front.length hentry] at hclosed
  rw [afterAll_replicate_succ, after_of_exec (exec_step_of_gate_closed (afterAll_replicate_step_batch hb) hv
    (decodePayload_of_channelOf _ hc) hg hclosed)]

/-- Settles O32: the step on `f` leaves the common time in the gate entry, so the gate stays closed. -/
theorem oneGatedFramePerBatchAtOneTime : Obligations.OneGatedFramePerBatchAtOneTime := by
  intro now s before f between f' rest t g hb hc hc' hg hv' happlied
  rw [afterAll_replicate_succ] at happlied
  rw [afterAll_replicate_add, afterAll_replicate_succ before.length]
  have hfirst := afterAll_replicate_step_batch (now := now) hb
  obtain ⟨hbatch, -, -⟩ := after_step_parts now (afterAll (List.replicate before.length (.step now)) s)
  rw [hfirst, List.tail_cons] at hbatch
  exact lastOutcome_of_same_time hbatch hv' hc' hg (after_step_gate_of_applied hfirst hc hg happlied)

/-! ## Two acceleration frames -/

/-- What an Applied acceleration frame leaves in its channel's fields (42_decode.md R163). -/
def HoldsAccLanes (f : Frame) (S : SensorState) : Prop :=
  S.acceleration.x0 = rne64 (f.half0.toInt * 16) 32768 ∧
  S.acceleration.x1 = rne64 (f.half1.toInt * 16) 32768 ∧
  S.acceleration.x2 = rne64 (f.half2.toInt * 16) 32768 ∧
  S.temperature = rne64 f.half3.toInt 100

theorem decodePayload_acc {f : Frame} (ht : f.typ = 0x51) : decodePayload Config.scaleLut f =
    .known .acc (accWrites Config.scaleLut f.half0 f.half1 f.half2 f.half3) :=
  decodePayload_of_channelOf _ (congrArg channelOf ht)

theorem holdsAccLanes_applyWrites (f : Frame) (S : SensorState) :
    HoldsAccLanes f (applyWrites (accWrites Config.scaleLut f.half0 f.half1 f.half2 f.half3) S) := by
  rw [applyWrites_accWrites]
  exact ⟨rfl, rfl, rfl, rfl⟩

theorem after_step_acc_of_open {now : Nat} {f : Frame} {s : State} {rest : List Frame} (hb : s.batch = f :: rest)
    (ht : f.typ = 0x51) (hv : valid f = true) (hopen : gateOpen s.gate.x0 now) :
    (after (.step now) s).batch = rest ∧ (after (.step now) s).gate.x0 = ⟨now, true⟩ ∧
      HoldsAccLanes f (after (.step now) s).sensor := by
  rw [after_of_exec (exec_step_of_accepted hb hv (decodePayload_acc ht) fun | _, rfl => hopen)]
  exact ⟨rfl, rfl, holdsAccLanes_applyWrites f s.sensor⟩

theorem after_step_acc_of_closed {now : Nat} {f : Frame} {s : State} {rest : List Frame} (hb : s.batch = f :: rest)
    (ht : f.typ = 0x51) (hv : valid f = true) (hclosed : ¬ gateOpen s.gate.x0 now) :
    (after (.step now) s).sensor = s.sensor := by
  rw [after_of_exec (exec_step_of_gate_closed (g := 0) hb hv (decodePayload_acc ht) rfl hclosed)]

/-- Settles O33: the first frame leaves its time in gate entry 0, and the interval from there decides the second. -/
theorem secondAccelerationFrameNeedsTheInterval : Obligations.SecondAccelerationFrameNeedsTheInterval := by
  intro now1 now2 s f1 f2 rest hb ht1 ht2 hv1 hv2 hopen
  obtain ⟨hb', hgate, hlanes⟩ := after_step_acc_of_open hb ht1 hv1 hopen
  refine ⟨fun hearly => ?early, fun hlate => ?late⟩
  case early =>
    have hclosed : ¬ gateOpen ⟨now1, true⟩ now2 := not_gateOpen_of_early rfl hearly
    rw [← hgate] at hclosed
    have hsame := after_step_acc_of_closed hb' ht2 hv2 hclosed
    rw [← hsame] at hlanes
    exact hlanes
  case late =>
    have hopen2 : gateOpen ⟨now1, true⟩ now2 := .inr hlate
    rw [← hgate] at hopen2
    obtain ⟨-, -, hlanes2⟩ := after_step_acc_of_open hb' ht2 hv2 hopen2
    exact hlanes2

end Sys2Proof.Machine
end

section
/-! Which encoded steps the machine has a meaning for (20_memory.md R65; 30_encoding.md R90; 44_host.md R229;
60_exceptions.md R254). -/

namespace Sys2Proof

theorem exists_bytes_of_length {l : List Byte} (h : l.length = 11) : ∃ f : Frame, l = f.bytes := by
  iterate 11
    obtain ⟨b, l, rfl⟩ := List.exists_cons_of_length_eq_add_one h
    replace h := Nat.succ.inj h
  rw [List.eq_nil_of_length_eq_zero h]
  exact ⟨⟨_, _, _, _, _, _, _, _, _, _, _⟩, rfl⟩

theorem hostAccessOk_iff (width off : Nat) :
    hostAccessOk width off = true ↔ width = 8 ∧ off % 8 = 0 ∧ off < 0x400 := by
  simp [hostAccessOk, and_assoc]

theorem exists_decodeHost_ok_iff (width off : Nat) (i : Instr) :
    (∃ j, decodeHost width off i = .ok j) ↔ hostAccessOk width off = true := by
  constructor
  · rintro ⟨j, h⟩
    obtain ⟨-, rfl, o, rfl⟩ := decodeHost_ok h
    exact Laws.EncodeWellFormed.offsetOf_ok o
  · intro h
    obtain ⟨rfl, ha, ho⟩ := (hostAccessOk_iff width off).1 h
    exact ⟨i, decodeHost_of_defined ha ho i⟩

theorem exists_decode_frame_ok_iff (now : Nat) (bytes : List Byte) :
    (∃ i, decode (.frame now bytes) = .ok i) ↔ (StepWord.frame now bytes).wf = true := by
  constructor
  · rintro ⟨i, h⟩
    cases hf : Frame.ofBytes? bytes with
    | none => simp [decode, hf] at h
    | some f =>
      rw [ofBytes_eq_some hf]
      rfl
  · intro h
    obtain ⟨f, rfl⟩ := exists_bytes_of_length (by simpa [StepWord.wf] using h)
    exact ⟨_, decode_frame_bytes now f⟩

/-- The decoder accepts the well-formed step words and no others. -/
theorem exists_decode_ok_iff (w : StepWord) : (∃ i, decode w = .ok i) ↔ w.wf = true := by
  cases w with
  | frame now bytes => exact exists_decode_frame_ok_iff now bytes
  | hostRead width off => exact exists_decodeHost_ok_iff width off _
  | hostWrite width off data => exact exists_decodeHost_ok_iff width off _
  | push b => exact ⟨fun _ => rfl, fun _ => ⟨_, rfl⟩⟩
  | extract => exact ⟨fun _ => rfl, fun _ => ⟨_, rfl⟩⟩
  | frameStep now => exact ⟨fun _ => rfl, fun _ => ⟨_, rfl⟩⟩
  | reset => exact ⟨fun _ => rfl, fun _ => ⟨_, rfl⟩⟩

end Sys2Proof

namespace Sys2Proof.Machine

/-- Settles O8: every instruction completes, so a step stops only where the decoder rejects its word. -/
theorem stepCompletesExactlyWhenDefined : Obligations.StepCompletesExactlyWhenDefined := by
  intro s w rest hp
  rw [← exists_decode_ok_iff]
  constructor
  · rintro ⟨t, h⟩
    obtain ⟨i, hd, -⟩ := steps_of_step h
    rw [fetch_of_pending hp] at hd
    exact ⟨i, hd⟩
  · rintro ⟨i, hd⟩
    rw [step_of_pending hp hd]
    exact exec_next i _

end Sys2Proof.Machine
end

section
/-! What the host reads answer: the fields of STATUS in their places, CTRL, the counters and the snapshot bank
(30_encoding.md R105-R108; 44_host.md R225, R226). -/

namespace Sys2Proof.Machine

/-! ## Fields in their places in a register -/

/-- The register that holds `v` in the bits from `k` up, and 0 elsewhere. -/
def fieldAt {n : Nat} (k : Nat) (v : BitVec n) : Word64 := v.setWidth 64 <<< k

theorem fieldAt_getLsbD {n : Nat} (k : Nat) (v : BitVec n) (j : Nat) :
    (fieldAt k v).getLsbD j = (decide (j < 64) && decide (k ≤ j) && v.getLsbD (j - k)) := by
  simp only [fieldAt, BitVec.getLsbD_shiftLeft, BitVec.getLsbD_setWidth]
  grind

theorem extractLsb'_fieldAt_same {n k : Nat} (v : BitVec n) (h : k + n ≤ 64) :
    (fieldAt k v).extractLsb' k n = v := by
  ext j hj
  have hlt : k + j < 64 := by omega
  simp [← BitVec.getLsbD_eq_getElem, fieldAt_getLsbD, hlt, hj]

theorem extractLsb'_fieldAt_apart {n k i m : Nat} (v : BitVec n) (h : i + m ≤ k ∨ k + n ≤ i) :
    (fieldAt k v).extractLsb' i m = 0#m := by
  ext j hj
  have hapart : ¬ k ≤ i + j ∨ n ≤ i + j - k := by omega
  rcases hapart with hbelow | habove
  · simp [← BitVec.getLsbD_eq_getElem, fieldAt_getLsbD, hbelow]
  · simp [← BitVec.getLsbD_eq_getElem, fieldAt_getLsbD, BitVec.getLsbD_of_ge v _ habove]

theorem getLsbD_of_extractLsb'_eq_ofBool {r : Word64} {k : Nat} {b : Bool} (h : r.extractLsb' k 1 = BitVec.ofBool b) :
    r.getLsbD k = b := by
  have hbit : (r.extractLsb' k 1).getLsbD 0 = r.getLsbD k := by simp
  rw [← hbit, h]
  cases b <;> rfl

/-! ## STATUS -/

/-- `BUF_LEVEL` fits its 32 bits (10_state.md R36). -/
theorem bufLevel_lt (s : Fdc) : bufLevel s < 2 ^ 32 := by
  unfold bufLevel
  omega

theorem toNat_ofNat_bufLevel (s : Fdc) : (BitVec.ofNat 32 (bufLevel s)).toNat = bufLevel s := by
  rw [BitVec.toNat_ofNat, Nat.mod_eq_of_lt (bufLevel_lt s)]

theorem ofNat_bufLevel_eq_setWidth (s : Fdc) :
    BitVec.ofNat 64 (bufLevel s) = (BitVec.ofNat 32 (bufLevel s)).setWidth 64 := by
  apply BitVec.eq_of_toNat_eq
  rw [BitVec.toNat_setWidth, toNat_ofNat_bufLevel, BitVec.toNat_ofNat]

/-- STATUS is its eight fields in their places (30_encoding.md R106). -/
theorem statusWord_eq_fields (s : Fdc) : statusWord s =
    fieldAt 32 (BitVec.ofNat 32 (bufLevel s)) ||| fieldAt 16 s.chValid ||| fieldAt 8 s.lastOutcome |||
      fieldAt 4 (BitVec.ofBool s.sticky.unktype) ||| fieldAt 3 (BitVec.ofBool s.sticky.ckerr) |||
      fieldAt 2 (BitVec.ofBool s.sticky.noise) ||| fieldAt 1 (BitVec.ofBool s.sticky.ovf) |||
      fieldAt 0 (BitVec.ofBool (busy s)) := by
  simp only [statusWord, fieldAt, ofNat_bufLevel_eq_setWidth, bit64_eq_setWidth, BitVec.shiftLeft_zero]

theorem exec_rdStatus (s : State) : exec .rdStatus s = .next { s with hRdata := statusWord s.toFdc } := rfl

/-- Settles O40: of each range of bits that the statement names, at most one of the eight fields is there. -/
theorem statusReadGivesFields : Obligations.StatusReadGivesFields := by
  refine fun s => ⟨statusWord s.toFdc, exec_rdStatus s, getLsbD_of_extractLsb'_eq_ofBool ?busy,
    getLsbD_of_extractLsb'_eq_ofBool ?ovf, getLsbD_of_extractLsb'_eq_ofBool ?noise,
    getLsbD_of_extractLsb'_eq_ofBool ?ckerr, getLsbD_of_extractLsb'_eq_ofBool ?unktype, ?reserved5, ?lastOutcome,
    ?reserved12, ?chValid, ?reserved25, ?bufLevel⟩
  all_goals
    simp (disch := omega) only [statusWord_eq_fields, BitVec.extractLsb'_or, extractLsb'_fieldAt_same,
      extractLsb'_fieldAt_apart, BitVec.or_zero, BitVec.zero_or, BitVec.ofNat_eq_ofNat]
  case busy => rw [busy]
  case bufLevel => rw [toNat_ofNat_bufLevel, bufLevel]

/-! ## CTRL, the counters and the snapshot -/

/-- Settles O41: each row reads its own offset, and the register map has the item there. -/
theorem controlAndCounterReads : Obligations.ControlAndCounterReads := fun s =>
  ⟨hostRead_eq 0x000 s, hostRead_eq 0x010 s, hostRead_eq 0x018 s, hostRead_eq 0x020 s, hostRead_eq 0x028 s,
    hostRead_eq 0x030 s, hostRead_eq 0x038 s, hostRead_eq 0x040 s, hostRead_eq 0x218 s⟩

/-- A snapshot register answers the encoding of the bank's field (30_encoding.md R108). -/
theorem memRead_of_snapField {off : Nat} {field : SensorField} (h : snapField off = some field) (s : Fdc) :
    memRead s off = (s.snap.sensor.get field).enc := by
  unfold memRead
  split
  case h_11 => rw [h]
  all_goals cases h

theorem hostRead_of_snapField {off : Nat} {field : SensorField} {v : Word64} {s : State}
    (h : snapField off = some field) (hv : (s.snap.sensor.get field).enc = v) :
    hostRead off s = .next { s with hRdata := v } := by
  rw [hostRead_eq, memRead_of_snapField h, hv]

/-- Settles O42: each row reads an offset that names a field of the bank. -/
theorem snapshotReads : Obligations.SnapshotReads := by
  intro s
  and_intros
  all_goals exact hostRead_of_snapField rfl rfl

end Sys2Proof.Machine
end

section
/-! The host writes, and how long the snapshot bank keeps what a SNAP put there (44_host.md R221-R224, R227). -/

namespace Sys2Proof.Machine

/-! ## The two writes -/

/-- Settles O45: `writeCtrl` reads every right-hand side in the state before it. -/
theorem ctrlWriteFollowsItsRule : Obligations.CtrlWriteFollowsItsRule := exec_wrCtrl

/-- Settles O47: the offset is not that of CTRL. -/
theorem otherWritesChangeNothing : Obligations.OtherWritesChangeNothing := fun _ v s ho => exec_wrOther ho v s

/-! ## The snapshot bank -/

theorem retireFrame_snap (interval now : Nat) (f : Frame) (d : Decoded) (s : Fdc) :
    (retireFrame interval now f d s).snap = s.snap := by
  rcases retireFrame_cases interval now f d s with ⟨-, e⟩ | ⟨t, w, -, -, e⟩ <;> rw [e]
  · rw [recordOutcome_snap]
  · rw [applyFrame_snap, recordOutcome_snap]

theorem writeCtrl_snap_of_snap {v : Word64} (hv : v.getLsbD 1 = true) (s : Fdc) :
    (writeCtrl v s).snap = ⟨s.sensor, s.chValid⟩ := by
  rw [writeCtrl_snap, if_pos hv, takeSnapshot]

theorem writeCtrl_snap_of_no_snap {v : Word64} (hv : v.getLsbD 1 = false) (s : Fdc) :
    (writeCtrl v s).snap = s.snap := by
  rw [writeCtrl_snap, hv]
  rfl

/-- An instruction that is neither RESET nor a SNAP. -/
def KeepsBank (i : Instr) : Prop := i ≠ .reset ∧ ∀ u, i = .wrCtrl u → u.getLsbD 1 = false

theorem Effect.snap_eq {i : Instr} {s t : Fdc} (h : Effect i s t) (hi : KeepsBank i) : t.snap = s.snap := by
  obtain ⟨hreset, hctrl⟩ := hi
  cases h with
  | same => rfl
  | push b _ => exact (pushByte_values _ b s).2
  | extract _ => exact (extractFrames_values _ s).2
  | reset hi => exact absurd hi hreset
  | ctrl v hi => exact writeCtrl_snap_of_no_snap (hctrl v hi) s
  | frame now f rest _ _ => exact retireFrame_snap ..

theorem after_snap_eq {i : Instr} (hw : i.wf = true) (hi : KeepsBank i) (s : State) : (after i s).snap = s.snap :=
  (exec_effect hw (exec_after i s)).snap_eq hi

theorem afterAll_snap_eq {is : List Instr} (his : ∀ i ∈ is, i.wf = true ∧ KeepsBank i) (s : State) :
    (afterAll is s).snap = s.snap := by
  induction is generalizing s with
  | nil => rfl
  | cons i is ih =>
    obtain ⟨⟨hw, hi⟩, his⟩ := List.forall_mem_cons.1 his
    exact (ih his (after i s)).trans (after_snap_eq hw hi s)

/-- Settles O46: the CTRL write fills the bank, and no later instruction of the run touches it. -/
theorem snapshotHoldsUntilNextSnapOrReset : Obligations.SnapshotHoldsUntilNextSnapOrReset := fun v s is hv his =>
  calc (afterAll is (after (.wrCtrl v) s)).snap
      = (after (.wrCtrl v) s).snap := afterAll_snap_eq his _
    _ = (writeCtrl v s.toFdc).snap := by rw [after_of_exec (exec_wrCtrl v s)]
    _ = ⟨s.sensor, s.chValid⟩ := writeCtrl_snap_of_snap hv _

end Sys2Proof.Machine
end

section
/-! What a step can do to the batch, and the quiescent state (43_gate_apply.md R195; 60_exceptions.md R262, R266). -/

namespace Sys2Proof.Machine

/-! ## The frame rows -/

/-- A frame row, well formed or not, is the FRAME step on the frame it is encoded as. -/
theorem exec_of_encode_frame {i : Instr} {now : Nat} {bytes : List Byte} (h : encode i = .frame now bytes) :
    ∃ (f : Frame) (d : Decoded), bytes = f.bytes ∧
      ∀ s, exec i s = onFdc (frameStepOn Config.rateIntervalTicks now f d) s := by
  cases i
  case clock | acc | gyro | angle | mag | port | press | lonlat | gpsv | unknown =>
    cases h
    exact ⟨_, _, rfl, fun _ => rfl⟩
  all_goals cases h

theorem exec_of_encode_frame_of_not_head {i : Instr} {now : Nat} {bytes : List Byte}
    (h : encode i = .frame now bytes) {s : State} (hs : s.batch.head?.map Frame.bytes ≠ some bytes) :
    exec i s = .next s := by
  obtain ⟨f, d, rfl, hexec⟩ := exec_of_encode_frame h
  have hf : s.batch.head? ≠ some f := fun hf => hs (by rw [hf, Option.map_some])
  rw [hexec, onFdc_eq, frameStepOn, if_neg hf]

theorem encode_of_isFrameStep {i : Instr} (h : isFrameStep i = true) :
    (∃ now, i = .step now) ∨ ∃ now bytes, encode i = .frame now bytes := by
  cases i
  case clock | acc | gyro | angle | mag | port | press | lonlat | gpsv | unknown => exact .inr ⟨_, _, rfl⟩
  case step now => exact .inl ⟨now, rfl⟩
  all_goals cases h

/-! ## The quiescent state -/

theorem exec_frameStep_of_empty {i : Instr} (hi : isFrameStep i = true) {s : State} (hb : s.batch = []) :
    exec i s = .next s := by
  rcases encode_of_isFrameStep hi with ⟨now, rfl⟩ | ⟨now, bytes, h⟩
  · exact exec_step_of_empty now hb
  · exact exec_of_encode_frame_of_not_head h (by simp [hb])

theorem exec_push_of_stopped (b : Byte) {s : State} (he : s.enable = false) : exec (.push b) s = .next s := by
  rw [pushAppendsAtTail b s, if_pos he]

/-- Settles O53: a FRAME step needs a batch, and the two others a started machine. -/
theorem quiescentStateIsInert : Obligations.QuiescentStateIsInert := by
  rintro i s ⟨he, hb⟩ (hi | rfl | ⟨b, rfl⟩)
  · exact exec_frameStep_of_empty hi hb
  · exact exec_extract_of_not_enabled (.inl he)
  · exact exec_push_of_stopped b he

/-! ## The batch along a step -/

theorem steps_push {b : Byte} {s t : Fdc} (h : Fdc.Steps (.push b) s t) : t = pushByte Config.bufCap b s := by
  obtain ⟨S, T, rfl, rfl, h⟩ := h
  cases h
  rfl

theorem steps_extract {s t : Fdc} (h : Fdc.Steps .extract s t) : t = extractFrames Config.syncMask s := by
  obtain ⟨S, T, rfl, rfl, h⟩ := h
  cases h
  rfl

theorem pushByte_batch (cap : Option Nat) (b : Byte) (s : Fdc) : (pushByte cap b s).batch = s.batch := by
  rcases pushByte_cases cap b s with ⟨-, e⟩ | ⟨-, -, e⟩ | ⟨-, -, e⟩ <;> rw [e]

theorem memWrite_batch (off : Nat) (v : Word64) (s : Fdc) : (memWrite off v s).batch = s.batch := by
  unfold memWrite
  split
  · exact writeCtrl_batch v s
  · rfl

/-- EXTRACT changes nothing, or it fills an empty batch with bytes it consumes. -/
theorem extractFrames_eq_or_fills (s : Fdc) : extractFrames Config.syncMask s = s ∨
    (s.batch = [] ∧ (extractFrames Config.syncMask s).batch ≠ [] ∧ 0 < headLoss .extract s) := by
  rcases extractFrames_cases Config.syncMask s with e | ⟨-, hb, h, hs, hc, e⟩
  · exact .inl e
  · have hlt := syncPairAt_lt ((scan_eq_some_iff_syncPairAt _ _).1 hs).1
    refine .inr ⟨hb, ?_, ?_⟩
    · rw [e, ← List.length_pos_iff, sliceFrames_length]
      exact Nat.pos_of_ne_zero hc
    · simp only [headLoss, e, List.length_drop]
      omega

/-- A step that takes no frame, is no EXTRACT and no RESET leaves the batch. -/
theorem steps_batch_eq {i : Instr} {s t : Fdc} (h : Fdc.Steps i s t) (hf : takesFrame i s = false)
    (he : i ≠ .extract) (hr : i ≠ .reset) : t.batch = s.batch := by
  cases i
  case extract => exact absurd rfl he
  case reset => exact absurd rfl hr
  case push b => rw [steps_push h, pushByte_batch]
  all_goals obtain ⟨S, T, rfl, rfl, h⟩ := h
  case step now =>
    have hb : S.batch = [] := by simpa [takesFrame, encode, frameEnabled] using hf
    rw [exec_step_of_empty now hb] at h
    cases h
    rfl
  case clock | acc | gyro | angle | mag | port | press | lonlat | gpsv | unknown =>
    rw [exec_of_encode_frame_of_not_head rfl (by simpa [takesFrame, encode] using hf)] at h
    cases h
    rfl
  case wrCtrl | wrOther =>
    cases h
    exact memWrite_batch ..
  all_goals
    cases h
    rfl

/-- All a step but RESET can do to the batch: nothing, take its head in a FRAME step, or fill it in an EXTRACT. -/
theorem steps_batch_cases {i : Instr} {s t : Fdc} (h : Fdc.Steps i s t) (hr : i ≠ .reset) :
    t.batch = s.batch ∨ (takesFrame i s = true ∧ t.batch = s.batch.tail) ∨
      (i = .extract ∧ s.batch = [] ∧ t.batch ≠ [] ∧ 0 < headLoss i s) := by
  cases hf : takesFrame i s with
  | true => exact .inr (.inl ⟨rfl, takesFrame_batch h hf⟩)
  | false =>
    by_cases he : i = .extract
    · subst he
      rw [steps_extract h]
      rcases extractFrames_eq_or_fills s with e | hfills
      · exact .inl (congrArg Fdc.batch e)
      · exact .inr (.inr ⟨rfl, hfills⟩)
    · exact .inl (steps_batch_eq h hf he hr)

/-- A batch in progress stays until a FRAME step or RESET (60_exceptions.md R263). -/
theorem steps_batch_eq_of_in_progress {i : Instr} {s t : Fdc} (h : Fdc.Steps i s t) (hb : s.batch ≠ [])
    (hf : takesFrame i s = false) (hr : i ≠ .reset) : t.batch = s.batch := by
  rcases steps_batch_cases h hr with e | ⟨ht, -⟩ | ⟨-, hnil, -⟩
  · exact e
  · exact absurd (ht.symm.trans hf) (by decide)
  · exact absurd hnil hb

end Sys2Proof.Machine
end

section
/-! The PARSER in infinite runs (60_exceptions.md R263; 40_extract.md R132). Every run of the machine is weakly fair,
because its fixed steps run out and the free order holds the PARSER's turns. In a fair run that stays started and is fed
by PUSH again and again, the argument is by contradiction: while nothing leaves the head of the buffer, it grows past
every bound, the batch drains and stays empty, and so an EXTRACT on a whole frame is taken, which consumes bytes. -/

namespace Sys2Proof.Machine

/-! ## Runs of the machine are weakly fair -/

/-- What stands in the free order again and again is fetched again and again. -/
theorem exists_fetch_of_recurs {m : Nat → State} (h : ∀ n, step (m n) = .next (m (n + 1))) {P : StepWord → Prop}
    (hP : ∀ n, ∃ j, n ≤ j ∧ P (Config.environment j)) (n : Nat) : ∃ k, n ≤ k ∧ P (fetch (m k)).1 := by
  obtain ⟨n₀, hn₀⟩ := pending_runs_out h
  obtain ⟨j, hj, hPj⟩ := hP ((m n₀).drawn + n)
  obtain ⟨hpending, hdrawn⟩ := draws_count_up h hn₀ (j - (m n₀).drawn)
  refine ⟨n₀ + (j - (m n₀).drawn), by omega, ?_⟩
  rw [fetch_of_no_pending hpending, hdrawn, Nat.add_sub_of_le (by omega)]
  exact hPj

theorem weaklyFair_of_steps {m : Nat → State} (h : ∀ n, step (m n) = .next (m (n + 1))) {order : Nat → Instr}
    (horder : ∀ n, decode (fetch (m n)).1 = .ok (order n)) : WeaklyFair order (fun n => (m n).toFdc) where
  frame n hn := by
    obtain ⟨k, hk, now, hw⟩ := exists_fetch_of_recurs h (P := fun w => ∃ now, w = .frameStep now)
      environment_frameStep n
    have hi : order k = .step now := (Except.ok.inj (hw ▸ horder k)).symm
    refine ⟨k, hk, ?_⟩
    rw [hi]
    exact hn k hk
  extract n hn := by
    obtain ⟨k, hk, hw⟩ := exists_fetch_of_recurs h (P := fun w => w = .extract) environment_extract n
    have hi : order k = .extract := (Except.ok.inj (hw ▸ horder k)).symm
    refine ⟨k, hk, ?_⟩
    rw [takesExtract, hi]
    exact hn k hk

theorem exists_fair_order {m : Nat → State} (h : ∀ n, step (m n) = .next (m (n + 1))) :
    ∃ order : Nat → Instr, (∀ n, decode (fetch (m n)).1 = .ok (order n)) ∧
      IsRun order (fun n => (m n).toFdc) ∧ WeaklyFair order (fun n => (m n).toFdc) := by
  choose order horder hsteps _ using fun n => steps_of_step (h n)
  exact ⟨order, horder, hsteps, weaklyFair_of_steps h horder⟩

/-! ## What leaves the head of the buffer in a step -/

/-- But for RESET, bytes leave in an EXTRACT that fills the batch and in a PUSH on a full buffer. -/
theorem steps_of_headLoss_pos {i : Instr} {s t : Fdc} (h : Fdc.Steps i s t) (hr : i ≠ .reset)
    (hpos : 0 < headLoss i s) :
    (i = .extract ∧ t.batch ≠ []) ∨ ((∃ b, i = .push b) ∧ Config.bufCap = some s.buf.length) := by
  by_cases he : i = .extract
  · subst he
    rw [steps_extract h]
    rcases extractFrames_eq_or_fills s with e | ⟨-, hfills, -⟩
    · simp [headLoss, e] at hpos
    · exact .inl ⟨rfl, hfills⟩
  · obtain ⟨b, rfl⟩ : ∃ b, i = .push b := by
      by_contra hp
      rw [headLoss_of_ne (not_exists.1 hp) he hr] at hpos
      exact absurd hpos (by decide)
    have hfull : s.enable = true ∧ Config.bufCap = some s.buf.length := by
      by_contra hn
      simp [headLoss, hn] at hpos
    exact .inr ⟨⟨b, rfl⟩, hfull.2⟩

theorem steps_buf_length_le {i : Instr} {s t : Fdc} (h : Fdc.Steps i s t) (hr : i ≠ .reset) {c : Nat}
    (hc : Config.bufCap = some c) (hs : s.buf.length ≤ c) : t.buf.length ≤ c := by
  by_cases hp : ∃ b, i = .push b
  · obtain ⟨b, rfl⟩ := hp
    rw [steps_push h]
    exact pushByte_buf_length_le hc b hs
  · rw [steps_buf h hr, tailGain_of_ne_push (not_exists.1 hp), List.append_nil, List.length_drop]
    omega

theorem syncPairAt_drop {buf : List Byte} {k j : Nat} (hk : k ≤ j) (h : syncPairAt buf j) :
    syncPairAt (buf.drop k) (j - k) := by
  obtain ⟨h55, c, hc, hmask⟩ := h
  refine ⟨?_, c, ?_, hmask⟩
  · rwa [List.getElem?_drop, Nat.add_sub_of_le hk]
  · rwa [List.getElem?_drop, ← Nat.add_assoc, Nat.add_sub_of_le hk]

/-- The byte at index `i` of the buffer is one that has to leave: it stands at a sync index, or the buffer is bounded
and within its bound. The second is what stays of a full buffer when bytes leave it. -/
def MustLeave (s : Fdc) (i : Nat) : Prop :=
  syncPairAt s.buf i ∨ ∃ c, Config.bufCap = some c ∧ s.buf.length ≤ c ∧ i < s.buf.length

/-- A byte that has to leave and does not leave in a step still has to leave. -/
theorem MustLeave.steps {i : Instr} {s t : Fdc} {k : Nat} (hk : MustLeave s k) (h : Fdc.Steps i s t)
    (hr : i ≠ .reset) (hle : headLoss i s ≤ k) : MustLeave t (k - headLoss i s) := by
  rcases hk with hsync | ⟨c, hc, hs, hlt⟩
  · left
    rw [steps_buf h hr]
    exact syncPairAt_append _ (syncPairAt_drop hle hsync)
  · refine .inr ⟨c, hc, steps_buf_length_le h hr hc hs, ?_⟩
    rw [steps_buf h hr, List.length_append, List.length_drop]
    omega

/-! ## The count of bytes that have left -/

theorem streamPos_mono (order : Nat → Instr) (f : Nat → Fdc) : Monotone (streamPos order f) :=
  monotone_nat_of_le_succ fun _ => Nat.le_add_right _ _

/-- A count that passes `p` passes it in one of the steps. -/
theorem exists_step_past {order : Nat → Instr} {f : Nat → Fdc} {p k : Nat} (h : p < streamPos order f k) :
    ∃ m, streamPos order f m ≤ p ∧ p < streamPos order f (m + 1) := by
  induction k with
  | zero => exact absurd h (Nat.not_lt_zero p)
  | succ k ih =>
    by_cases hk : p < streamPos order f k
    · exact ih hk
    · exact ⟨k, Nat.le_of_not_lt hk, h⟩

/-! ## Runs that stay started and are fed -/

/-- A weakly fair run that from place `n` on stays started, and in which PUSH comes again and again. -/
structure FedRun (order : Nat → Instr) (f : Nat → Fdc) (n : Nat) : Prop where
  run : IsRun order f
  fair : WeaklyFair order f
  started : ∀ m, n ≤ m → (f m).enable = true
  pushes : ∀ k, ∃ m, k ≤ m ∧ ∃ b, order m = .push b

/-- From place `n` on nothing leaves the head of the buffer. -/
def Quiet (order : Nat → Instr) (f : Nat → Fdc) (n : Nat) : Prop := ∀ m, n ≤ m → headLoss (order m) (f m) = 0

theorem Quiet.mono {order : Nat → Instr} {f : Nat → Fdc} {n k : Nat} (h : Quiet order f n) (hk : n ≤ k) :
    Quiet order f k := fun m hm => h m (hk.trans hm)

namespace FedRun

variable {order : Nat → Instr} {f : Nat → Fdc} {n : Nat}

theorem mono (h : FedRun order f n) {k : Nat} (hk : n ≤ k) : FedRun order f k :=
  { h with started := fun m hm => h.started m (hk.trans hm) }

theorem ne_reset (h : FedRun order f n) {m : Nat} (hm : n ≤ m) : order m ≠ .reset := fun hr => by
  have hstep := h.run m
  rw [hr] at hstep
  exact absurd ((reset_steps_enable hstep).symm.trans (h.started (m + 1) (by omega))) (by decide)

theorem buf_succ (h : FedRun order f n) (hq : Quiet order f n) {m : Nat} (hm : n ≤ m) :
    (f (m + 1)).buf = (f m).buf ++ tailGain (order m) (f m) := by
  rw [steps_buf (h.run m) (h.ne_reset hm), hq m hm, List.drop_zero]

theorem buf_prefix (h : FedRun order f n) (hq : Quiet order f n) {m : Nat} (hm : n ≤ m) :
    (f n).buf <+: (f m).buf := by
  induction m, hm using Nat.le_induction with
  | base => exact List.prefix_rfl
  | succ m hm ih =>
    rw [h.buf_succ hq hm]
    exact ih.trans (List.prefix_append _ _)

/-- While nothing leaves the buffer it grows past every bound. -/
theorem buf_unbounded (h : FedRun order f n) (hq : Quiet order f n) (l : Nat) :
    ∃ m, n ≤ m ∧ l ≤ (f m).buf.length := by
  induction l with
  | zero => exact ⟨n, le_rfl, Nat.zero_le _⟩
  | succ l ih =>
    obtain ⟨k, hk, hl⟩ := ih
    obtain ⟨m, hm, b, hb⟩ := h.pushes k
    have hle := ((h.mono hk).buf_prefix (hq.mono hk) hm).length_le
    refine ⟨m + 1, by omega, ?_⟩
    rw [h.buf_succ hq (hk.trans hm), hb, tailGain, if_pos (h.started m (hk.trans hm)), List.length_append,
      List.length_singleton]
    omega

/-- While nothing leaves the buffer, the batch changes by FRAME steps alone. -/
theorem batch_succ (h : FedRun order f n) (hq : Quiet order f n) {m : Nat} (hm : n ≤ m) :
    (f (m + 1)).batch = (f m).batch ∨
      (takesFrame (order m) (f m) = true ∧ (f (m + 1)).batch = (f m).batch.tail) := by
  rcases steps_batch_cases (h.run m) (h.ne_reset hm) with e | htakes | ⟨-, -, -, hpos⟩
  · exact .inl e
  · exact .inr htakes
  · exact absurd (hq m hm) hpos.ne'

theorem batch_suffix (h : FedRun order f n) (hq : Quiet order f n) {m : Nat} (hm : n ≤ m) :
    (f m).batch <:+ (f n).batch := by
  induction m, hm using Nat.le_induction with
  | base => exact List.suffix_rfl
  | succ m hm ih =>
    rcases h.batch_succ hq hm with e | ⟨-, e⟩ <;> rw [e]
    · exact ih
    · exact (List.tail_suffix _).trans ih

/-- While nothing leaves the buffer, fairness of FRAME drains the batch. -/
theorem exists_batch_nil (h : FedRun order f n) (hq : Quiet order f n) : ∃ m, n ≤ m ∧ (f m).batch = [] := by
  induction hl : (f n).batch.length using Nat.strong_induction_on generalizing n with
  | _ l ih =>
    by_contra hne
    push Not at hne
    obtain ⟨m, hm, htakes⟩ := h.fair.frame n fun m hm => by simpa [frameEnabled] using hne m hm
    have hlt : (f (m + 1)).batch.length < l := by
      have hpos := List.length_pos_iff.2 (hne m hm)
      have hle := (h.batch_suffix hq hm).length_le
      rw [takesFrame_batch (h.run m) htakes, List.length_tail]
      omega
    have hnm : n ≤ m + 1 := by omega
    obtain ⟨k, hk, hnil⟩ := ih _ hlt (h.mono hnm) (hq.mono hnm) rfl
    exact hne k (hnm.trans hk) hnil

/-- While nothing leaves the buffer, an EXTRACT is taken at some place after any other. -/
theorem exists_takesExtract (h : FedRun order f n) (hq : Quiet order f n) (k : Nat) :
    ∃ m, k ≤ m ∧ n ≤ m ∧ takesExtract (order m) (f m) = true := by
  obtain ⟨l, hl, hnil⟩ := h.exists_batch_nil hq
  have henabled : ∀ m, max k l ≤ m → extractEnabled (f m) = true := fun m hm => by
    have hlm : l ≤ m := (le_max_right k l).trans hm
    have hsuffix := (h.mono hl).batch_suffix (hq.mono hl) hlm
    rw [hnil, List.suffix_nil] at hsuffix
    exact (extractEnabled_iff _).2 ⟨h.started m (hl.trans hlm), hsuffix⟩
  obtain ⟨m, hm, htakes⟩ := h.fair.extract _ henabled
  exact ⟨m, by omega, by omega, htakes⟩

/-- A sync index does not stay: the EXTRACT taken once its whole frame is there consumes bytes. -/
theorem not_quiet_of_syncPairAt (h : FedRun order f n) {i : Nat} (hi : syncPairAt (f n).buf i) :
    ¬ Quiet order f n := fun hq => by
  obtain ⟨k, hk, hlen⟩ := h.buf_unbounded hq (i + 11)
  obtain ⟨m, hkm, hm, htakes⟩ := h.exists_takesExtract hq k
  obtain ⟨hextract, henabled⟩ : order m = .extract ∧ extractEnabled (f m) = true := by
    simpa [takesExtract] using htakes
  have hsync : syncPairAt (f m).buf i := by
    obtain ⟨new, hnew⟩ := h.buf_prefix hq hm
    exact hnew ▸ syncPairAt_append new hi
  have hle := ((h.mono hk).buf_prefix (hq.mono hk) hkm).length_le
  have hpos := headLoss_extract_pos henabled hsync (hlen.trans hle)
  rw [← hextract, hq m hm] at hpos
  exact absurd hpos (by decide)

/-- A bounded buffer within its bound does not only grow. -/
theorem not_quiet_of_bounded (h : FedRun order f n) {c : Nat} (hc : Config.bufCap = some c)
    (hn : (f n).buf.length ≤ c) : ¬ Quiet order f n := fun hq => by
  have hle : ∀ m, n ≤ m → (f m).buf.length ≤ c := fun m hm => by
    induction m, hm using Nat.le_induction with
    | base => exact hn
    | succ m hm ih => exact steps_buf_length_le (h.run m) (h.ne_reset hm) hc ih
  obtain ⟨m, hm, hlen⟩ := h.buf_unbounded hq (c + 1)
  exact absurd (hle m hm) (by omega)

/-- Where a byte has to leave, some byte leaves. -/
theorem exists_headLoss_pos (h : FedRun order f n) {i : Nat} (hi : MustLeave (f n) i) :
    ∃ m, n ≤ m ∧ 0 < headLoss (order m) (f m) := by
  have hnot : ¬ Quiet order f n := by
    rcases hi with hsync | ⟨c, hc, hn, -⟩
    · exact h.not_quiet_of_syncPairAt hsync
    · exact h.not_quiet_of_bounded hc hn
  simpa [Quiet, Nat.pos_iff_ne_zero] using hnot

/-- A byte that has to leave still has to while it is in the buffer; `p` is its place in the stream. -/
theorem mustLeave_of_streamPos_le (h : FedRun order f n) {p m : Nat} (hp : MustLeave (f n) (p - streamPos order f n))
    (hm : n ≤ m) (hle : streamPos order f m ≤ p) : MustLeave (f m) (p - streamPos order f m) := by
  induction m, hm using Nat.le_induction with
  | base => exact hp
  | succ m hm ih =>
    have hpos : streamPos order f (m + 1) = streamPos order f m + headLoss (order m) (f m) := rfl
    rw [hpos, Nat.sub_add_eq]
    exact (ih (by omega)).steps (h.run m) (h.ne_reset hm) (by omega)

/-- A byte that has to leave leaves: as long as it is there bytes leave before it, and there are `p` of them. -/
theorem exists_streamPos_gt (h : FedRun order f n) {p : Nat} (hp : MustLeave (f n) (p - streamPos order f n)) :
    ∃ m, p < streamPos order f m := by
  by_contra hstays
  push Not at hstays
  have hgrows : ∀ k, ∃ m, n ≤ m ∧ k ≤ streamPos order f m := fun k => by
    induction k with
    | zero => exact ⟨n, le_rfl, Nat.zero_le _⟩
    | succ k ih =>
      obtain ⟨l, hl, hk⟩ := ih
      obtain ⟨m, hm, hpos⟩ := (h.mono hl).exists_headLoss_pos (h.mustLeave_of_streamPos_le hp hl (hstays l))
      have hlm := streamPos_mono order f hm
      exact ⟨m + 1, by omega, by rw [streamPos]; omega⟩
  obtain ⟨m, -, hm⟩ := hgrows (p + 1)
  exact absurd (hstays m) (by omega)

/-- The step in which a byte that has to leave leaves, and what that step is (40_extract.md R132). -/
theorem exists_leaving_step (h : FedRun order f n) {i : Nat} (hi : MustLeave (f n) i) :
    ∃ m, n ≤ m ∧ streamPos order f m ≤ streamPos order f n + i ∧
      streamPos order f n + i < streamPos order f (m + 1) ∧
      ((order m = .extract ∧ (f (m + 1)).batch ≠ []) ∨
        ((∃ b, order m = .push b) ∧ Config.bufCap = some (f m).buf.length)) := by
  obtain ⟨k, hk⟩ := h.exists_streamPos_gt (p := streamPos order f n + i) (by rwa [Nat.add_sub_cancel_left])
  obtain ⟨m, hle, hlt⟩ := exists_step_past hk
  have hm : n ≤ m := by
    by_contra hmn
    have hback := streamPos_mono order f (show m + 1 ≤ n by omega)
    omega
  have hpos : 0 < headLoss (order m) (f m) := by
    rw [streamPos] at hlt
    omega
  exact ⟨m, hm, hle, hlt, steps_of_headLoss_pos (h.run m) (h.ne_reset hm) hpos⟩

end FedRun

/-- Settles O60: a run of the machine is fair by its free order, and in a fair run what has to leave leaves. -/
theorem fairParserConsumesSyncIndices : Obligations.FairParserConsumesSyncIndices := by
  refine ⟨fun m h => exists_fair_order h, fun i s t h hb hf hr => steps_batch_eq_of_in_progress h hb hf hr,
    fun order f n i hrun hfair hstarted hpushes hi => ?leaves, fun c hc => bufCap_ge hc, fun s hs => ?short⟩
  case leaves =>
    refine FedRun.exists_leaving_step ⟨hrun, hfair, hstarted, hpushes⟩ ?_
    exact hi.imp_right fun ⟨hfull, hlt⟩ => ⟨_, hfull, le_rfl, hlt⟩
  case short => exact extractFrames_of_noWholeFrame fun j _ => Nat.lt_add_left j hs

end Sys2Proof.Machine
end

section
/-! RESET: what it writes, what the host reads after it, and the invariants in the state it leaves
(70_reset_and_hazards.md R280, R281). -/

namespace Sys2Proof.Machine

/-! ## The step -/

/-- RESET replaces the FDC's state, whatever it was, and nothing around it. -/
theorem exec_reset (s : State) : exec .reset s = .next { s with toFdc := Fdc.reset } := rfl

/-- Settles O49: the FDC's state after RESET is `Fdc.reset`, and that is the literal of the statement. -/
theorem resetWritesEveryItem : Obligations.ResetWritesEveryItem := fun s => ⟨_, exec_reset s, rfl⟩

/-- Settles O50: RESET acts on the FDC alone. -/
theorem resetLeavesTheModelsOwnFields : Obligations.ResetLeavesTheModelsOwnFields := fun s =>
  ⟨_, exec_reset s, rfl, rfl, rfl⟩

/-! ## The window after RESET -/

@[simp] theorem Quad.get_all {α : Type} (v : α) (i : Fin 4) : (Quad.all v).get i = v := by
  fin_cases i <;> rfl

theorem SensorState.reset_deviceClock_get (i : Fin 7) : SensorState.reset.deviceClock.get i = 0 := by
  fin_cases i <;> rfl

/-- Every field is +0.0 or the integer 0 after RESET, and both are encoded as 0 (30_encoding.md R108). -/
theorem SensorState.reset_get_enc (field : SensorField) : (SensorState.reset.get field).enc = 0 := by
  cases field with
  | acceleration i | angularVelocity i | angle i => exact Quad.get_all 0 i
  | magneticField i | digitalPort i => exact congrArg (BitVec.ofInt 64) (Quad.get_all 0 i)
  | deviceClock i => exact congrArg (BitVec.ofInt 64) (reset_deviceClock_get i)
  | temperature | altitude | groundVelocity | gpsYaw | gpsHeight => rfl
  | pressure | longitude | latitude => rfl

/-- A snapshot register reads 0 by the field of the bank it holds, a control register or counter by its value, and a
reserved offset in any state (70_reset_and_hazards.md R281). -/
theorem memRead_reset (off : Nat) : memRead Fdc.reset off = 0 := by
  cases hfield : snapField off with
  | some field => exact (memRead_of_snapField hfield Fdc.reset).trans (SensorState.reset_get_enc field)
  | none =>
    unfold memRead
    split
    case h_11 => rw [hfield]
    all_goals rfl

/-- Settles O51: the offset decodes to its own read, and the register map of the reset state has 0 there. -/
theorem everyRegisterReadsZeroAfterReset : Obligations.EveryRegisterReadsZeroAfterReset := by
  intro s off ha ho
  refine ⟨decodeRead off, { s with toFdc := Fdc.reset }, decodeHost_of_defined ha ho _, exec_reset s, ?_⟩
  rw [exec_decodeRead ha ho, hostRead_eq, memRead_reset]

/-! ## The invariants after RESET -/

theorem Fdc.FloatsOk.reset : Fdc.reset.FloatsOk := ⟨.reset, .reset⟩

theorem Fdc.Quiescent.reset : Fdc.reset.Quiescent := ⟨rfl, rfl⟩

/-- Settles O58: the base case of each invariant, for the FDC's part of the reset state. -/
theorem resetStateMeetsInvariants : Obligations.ResetStateMeetsInvariants :=
  ⟨Fdc.Sound.reset, Fdc.ValuesOk.reset, Fdc.FloatsOk.reset, Fdc.Balanced.reset, Fdc.Quiescent.reset⟩

end Sys2Proof.Machine
end
